-- ==== Sys2Proof/Word.lean ====
section
/-! DEFINITION. The word types of CFE (00_scope R16): every register, index and byte of the spec is an
unsigned number of a stated width. -/

namespace Sys2Proof

/-- A byte, 8 bits (R16). -/
abbrev Byte := BitVec 8

/-- 16 bits: `a`, the payload length, the body window (10_state R22). -/
abbrev Half := BitVec 16

/-- 32 bits: the generator state and the MD5 words (10_state R29, 43_md5_hex R193). -/
abbrev Word := BitVec 32

end Sys2Proof
end

