-- ==== Sys2Proof/Syntax.lean ====
section
/-! DEFINITION. The instructions of CFE: one constructor for each row of spec/opcode_table.json. The twelve
commands of format CMD8 carry no operand (30_encoding R111). The five wire formats carry the fields of their
row (30_encoding R90, R94, R103, R104, R106). -/

namespace Sys2Proof

/-- A direction (00_scope R3): `tx` is client to server, `rx` is server to client. -/
inductive Dir where
  | tx
  | rx
  deriving DecidableEq, Repr

/-- Commands and wire formats. A wire format that both directions use names its direction, which its bits do
not hold (30_encoding R94). -/
inductive Instr where
  /-- NOP, code 0x00 (47_session_system R308). -/
  | nop
  /-- RESET, code 0x01 (47_session_system R301). -/
  | reset
  /-- SESS.OPEN, code 0x02 (47_session_system R302). -/
  | sessOpen
  /-- SESS.KEY, code 0x03 (47_session_system R303). -/
  | sessKey
  /-- SKT.GEN, code 0x04 (44_special_key_table R225). -/
  | sktGen
  /-- SESS.CLOSE, code 0x05 (47_session_system R306). -/
  | sessClose
  /-- FRAME.WR, code 0x10 (40_frame_codec R135). -/
  | frameWr
  /-- SEND, code 0x11 (46_send_recv R270). -/
  | send
  /-- CRYPT.TX, code 0x12 (42_crypt R175). -/
  | cryptTx
  /-- FRAME.RD, code 0x20 (40_frame_codec R130). -/
  | frameRd
  /-- RECV, code 0x21 (46_send_recv R280). -/
  | recv
  /-- CRYPT.RX, code 0x22 (42_crypt R176). -/
  | cryptRx
  /-- FRAME: magic, 16-bit big-endian length, payload (30_encoding R90). -/
  | frame (d : Dir) (payload : List Byte)
  /-- P-PLAIN: opcode, then the body verbatim (30_encoding R94). -/
  | pPlain (d : Dir) (opc : Byte) (body : List Byte)
  /-- P-NORM-TX: opcode, ordinal, ciphertext, trailer (30_encoding R103). -/
  | pNormTx (opc ord : Byte) (cbody : List Byte) (t0 t1 t2 : Byte)
  /-- P-MD5-TX: opcode, ordinal, ciphertext, hash fragments, trailer (30_encoding R104). -/
  | pMd5Tx (opc ord : Byte) (cbody frag : List Byte) (t0 t1 t2 : Byte)
  /-- P-ENC-RX: opcode, ordinal, ciphertext, trailer (30_encoding R106). -/
  | pEncRx (opc ord : Byte) (cbody : List Byte) (t0 t1 t2 : Byte)
  deriving DecidableEq, Repr

end Sys2Proof
end

