-- ==== Sys2Proof/Config.lean ====
section
/-! DEFINITION. What an implementation fixes: the FIXED parameters and decided constants (00_scope R10, R14),
the type of the OPEN parameters (R11 to R13; 92_eei_decisions D10 to D13), the memory spaces (10_state R40),
and the two constants without a value: the parameters of the device at hand and the free bytes. -/

namespace Sys2Proof

/-- EncryptionType of a packet (30_encoding R107): stored as 0, 1, 2; the value 3 does not exist
(10_state R47). -/
inductive Cls where
  | none
  | normal
  | md5
  deriving DecidableEq, Repr, Inhabited

/-- `TRAILER_ORDER` (00_scope R13): the order on the wire of the low byte of `a`, `b`, and the high byte of
`a`. The six orders are the six values; `loBHi` is the spec's default (30_encoding R102). -/
inductive TrailerOrder where
  | loBHi
  | loHiB
  | bLoHi
  | bHiLo
  | hiLoB
  | hiBLo
  deriving DecidableEq, Repr, Inhabited

/-- The nine memory spaces (10_state R40). -/
inductive Space where
  | saltTx
  | saltRx
  | keyRaw
  | skt
  | pb
  | txb
  | rxb
  | encTx
  | encRx
  deriving DecidableEq, Repr

/-- The five OPEN parameters (00_scope R11 to R13) as plain data: `SALT_FORMULA` is its table of 10 by 256
integers, the classifiers are total tables of 256 entries. The two default values only show that the type has a value,
for `deriving Inhabited`; they say nothing of a device. -/
structure Config where
  /-- `SALT_FORMULA(seed, i)` (R11). -/
  salt : Vector (Vector Int 256) 10
  /-- `ENC_TX` (R12). -/
  encTx : Vector Cls 256
  /-- `ENC_RX` (R12). -/
  encRx : Vector Cls 256
  /-- `HASH_FRAG_OFFSETS`, each 0 to 15 (R13). -/
  fragOffsets : List (Fin 16) := []
  /-- `NFRAG <= 65530` (92_eei_decisions, the table of OPEN parameters, D12): a packet of class Md5 with an empty body
  fits a frame (46_send_recv R276). -/
  fragBound : fragOffsets.length ≤ 65530 := by decide
  /-- `TRAILER_ORDER` (R13). -/
  trailerOrder : TrailerOrder
  deriving DecidableEq, Repr, Inhabited

/-- `NFRAG`, the number of hash fragments (00_scope R13). -/
def Config.nfrag (c : Config) : Nat := c.fragOffsets.length

/-- The OPEN parameters of the device at hand. No body: the source gives none of them (00_scope R9), so
nothing can be proved of their values but what holds of every `Config` (DESIGN CHOICE, notes/assumptions/5). -/
opaque Config.device : Config

/-- What a read of index `i` of a space returns in transition number `tick` where the location holds no value
(10_state R49; 93_implementation_defined U3): any byte, not necessarily the same byte twice
(DESIGN CHOICE, notes/assumptions/6). -/
opaque Config.freeByte : (tick : Nat) → Space → (i : Nat) → Byte

/-- `MAGIC` (00_scope R10). -/
abbrev magic : Byte := 0xAA#8
/-- `MAX_PAYLOAD` (R10). -/
abbrev maxPayload : Nat := 65535
/-- `SALT_LEN` (R10). -/
abbrev saltLen : Nat := 256
/-- `SEED_MAX` (R10). -/
abbrev seedMax : Nat := 9
/-- `SKT_ROUNDS` (R10). -/
abbrev sktRounds : Nat := 31
/-- `SKT_LEN` (R10). -/
abbrev sktLen : Nat := 1024
/-- `KEY9_LEN` (R10). -/
abbrev key9Len : Nat := 9
/-- `LCG_MUL` (R10). -/
abbrev lcgMul : Word := 0x343FD#32
/-- `LCG_INC` (R10). -/
abbrev lcgInc : Word := 0x269EC3#32
/-- `LCG_SEED` (R10). -/
abbrev lcgSeed : Word := 1#32
/-- `A_MOD` (R10). -/
abbrev aMod : Nat := 65277
/-- `A_OFF` (R10). -/
abbrev aOff : Nat := 256
/-- `B_TX` (R10). -/
abbrev bTx : Byte := 100#8
/-- `MASK_A` (R10). -/
abbrev maskA : Half := 0x7470#16
/-- `MASK_B` (R10). -/
abbrev maskB : Byte := 0x23#8
/-- `RX_TRAILER_LEN` (R10). -/
abbrev rxTrailerLen : Nat := 3
/-- `ORD_INIT` (R14). -/
abbrev ordInit : Byte := 0#8
/-- `TXB_CAP` (R14): the longest `TXB_LEN` a TX command takes. -/
abbrev txbCap : Nat := 65536

/-- Number of indices of a space (10_state R40). -/
def Space.size : Space → Nat
  | .saltTx => 256
  | .saltRx => 256
  | .keyRaw => 255
  | .skt => 1024
  | .pb => 255
  | .txb => 65536
  | .rxb => 65535
  | .encTx => 256
  | .encRx => 256

end Sys2Proof
end

