-- ==== Sys2Proof/WellFormed.lean ====
section
/-! DEFINITION. Which instructions an encoding exists for. A command is well formed; a wire format is when its
payload fits a frame (30_encoding R90, R108) and an outbound Md5 packet has `NFRAG` hash fragments (R104). -/

namespace Sys2Proof

/-- Length in bytes of the payload of a wire format (30_encoding R94); 0 for a command. -/
def Instr.payloadLength : Instr → Nat
  | .frame _ p => p.length
  | .pPlain _ _ body => 1 + body.length
  | .pNormTx _ _ cbody _ _ _ => 5 + cbody.length
  | .pMd5Tx _ _ cbody frag _ _ _ => 5 + frag.length + cbody.length
  | .pEncRx _ _ cbody _ _ _ => 5 + cbody.length
  | .nop | .reset | .sessOpen | .sessKey | .sktGen | .sessClose => 0
  | .frameWr | .send | .cryptTx | .frameRd | .recv | .cryptRx => 0

/-- The number of hash fragments is `NFRAG` where the format has them (30_encoding R104). -/
def Instr.fragmentsOk (nfrag : Nat) : Instr → Bool
  | .pMd5Tx _ _ _ frag _ _ _ => frag.length == nfrag
  | _ => true

/-- Well-formed: the payload is at most `MAX_PAYLOAD` bytes and the hash fragments are `NFRAG` many. -/
def Instr.wellFormed (nfrag : Nat) (i : Instr) : Bool :=
  decide (i.payloadLength ≤ maxPayload) && i.fragmentsOk nfrag

end Sys2Proof
end

