-- ==== Sys2Proof/Decode.lean ====
section
/-! DEFINITION. Decoding, total on any bytes, rejecting by name; then the encoder, and the words of
spec/opcode_table.json. What a byte sequence is read as depends on where it stands: a byte written to CMD, the
front of a stream, or the payload of a frame whose class the opcode has selected (30_encoding R94, R118). -/

namespace Sys2Proof

/-- Where the bytes stand. -/
inductive Ctx where
  /-- A byte written to CMD (30_encoding R110). -/
  | cmd
  /-- A frame on a stream (R90). -/
  | frame (d : Dir)
  /-- A payload of a direction and class (R94). -/
  | payload (d : Dir) (cls : Cls)
  deriving DecidableEq, Repr

/-- Why bytes are rejected. -/
inductive DecodeError where
  /-- The code is not in the table of 30_encoding R110 (R113). -/
  | illegalCommand (code : Byte)
  /-- A command is one byte (R111). -/
  | notOneByte
  /-- Fewer than three bytes: no frame header yet (40_frame_codec R132). -/
  | headerShort
  /-- The first byte is not `MAGIC` (30_encoding R92). -/
  | badMagic (b : Byte)
  /-- Fewer bytes than the header's length asks for (40_frame_codec R132). -/
  | payloadShort
  /-- A payload of length 0 has no opcode (30_encoding R93). -/
  | emptyPayload
  /-- No room for opcode, ordinal, fragments and trailer (46_send_recv R284). -/
  | encryptedShort (len : Nat)
  /-- A payload longer than `MAX_PAYLOAD` (30_encoding R90). -/
  | payloadTooLong (len : Nat)
  deriving DecidableEq, Repr

/-- The command with a code (30_encoding R110). -/
def decodeCommand (code : Byte) : Except DecodeError Instr :=
  match code.toNat with
  | 0x00 => .ok .nop
  | 0x01 => .ok .reset
  | 0x02 => .ok .sessOpen
  | 0x03 => .ok .sessKey
  | 0x04 => .ok .sktGen
  | 0x05 => .ok .sessClose
  | 0x10 => .ok .frameWr
  | 0x11 => .ok .send
  | 0x12 => .ok .cryptTx
  | 0x20 => .ok .frameRd
  | 0x21 => .ok .recv
  | 0x22 => .ok .cryptRx
  | _ => .error (.illegalCommand code)

/-- `length = len_hi*256 + len_lo` (30_encoding R91). -/
def frameLength (hi lo : Byte) : Nat := hi.toNat * 256 + lo.toNat

/-- The payload of the frame at the front of a byte sequence, and the bytes after it (30_encoding R90 to R92).
The header is judged by its magic before its length is looked at (40_frame_codec R130). -/
def decodeFrame : List Byte → Except DecodeError (List Byte × List Byte)
  | h0 :: h1 :: h2 :: rest =>
    if h0 ≠ magic then .error (.badMagic h0)
    else if frameLength h1 h2 ≤ rest.length then
      .ok (rest.take (frameLength h1 h2), rest.drop (frameLength h1 h2))
    else .error .payloadShort
  | _ => .error .headerShort

/-- The parts of an encrypted payload: opcode, ordinal, what stands between, and the last three bytes
(30_encoding R106); `none` below 5 bytes. -/
def splitEncrypted (p : List Byte) : Option (Byte × Byte × List Byte × Byte × Byte × Byte) :=
  match p with
  | opc :: ord :: rest =>
    match rest.drop (rest.length - rxTrailerLen) with
    | [t0, t1, t2] => some (opc, ord, rest.take (rest.length - rxTrailerLen), t0, t1, t2)
    | _ => none
  | _ => none

/-- A payload of the format its direction and class select (30_encoding R94). -/
def decodePayload (nfrag : Nat) (d : Dir) (cls : Cls) (p : List Byte) : Except DecodeError Instr :=
  if maxPayload < p.length then .error (.payloadTooLong p.length)
  else
    match cls with
    | .none =>
      match p with
      | [] => .error .emptyPayload
      | opc :: body => .ok (.pPlain d opc body)
    | .normal | .md5 =>
      match splitEncrypted p with
      | none => .error (.encryptedShort p.length)
      | some (opc, ord, mid, t0, t1, t2) =>
        match d, cls with
        | .rx, _ => .ok (.pEncRx opc ord mid t0 t1 t2)
        | .tx, .md5 =>
          if nfrag ≤ mid.length then
            .ok (.pMd5Tx opc ord (mid.take (mid.length - nfrag)) (mid.drop (mid.length - nfrag)) t0 t1 t2)
          else .error (.encryptedShort p.length)
        | .tx, _ => .ok (.pNormTx opc ord mid t0 t1 t2)

/-- The instruction at the front of a byte sequence and the bytes after it. A payload is the whole sequence. -/
def decode (nfrag : Nat) (c : Ctx) (bs : List Byte) : Except DecodeError (Instr × List Byte) :=
  match c with
  | .cmd =>
    match bs with
    | code :: rest => (decodeCommand code).map fun i => (i, rest)
    | [] => .error .notOneByte
  | .frame d => (decodeFrame bs).map fun (p, rest) => (.frame d p, rest)
  | .payload d cls => (decodePayload nfrag d cls bs).map fun i => (i, [])

/-- The code of a command (30_encoding R110); 0 for a wire format, which has none. -/
def commandCode : Instr → Byte
  | .nop => 0x00#8
  | .reset => 0x01#8
  | .sessOpen => 0x02#8
  | .sessKey => 0x03#8
  | .sktGen => 0x04#8
  | .sessClose => 0x05#8
  | .frameWr => 0x10#8
  | .send => 0x11#8
  | .cryptTx => 0x12#8
  | .frameRd => 0x20#8
  | .recv => 0x21#8
  | .cryptRx => 0x22#8
  | .frame .. | .pPlain .. | .pNormTx .. | .pMd5Tx .. | .pEncRx .. => 0x00#8

/-- `[MAGIC, len(p)[15:8], len(p)[7:0]] ++ p` (40_frame_codec R135). -/
def frameBytes (p : List Byte) : List Byte :=
  magic :: BitVec.ofNat 8 (p.length / 256) :: BitVec.ofNat 8 p.length :: p

/-- The bytes of an instruction: a command's code, a frame, or a payload (30_encoding R90, R94, R110). -/
def encode : Instr → List Byte
  | .frame _ p => frameBytes p
  | .pPlain _ opc body => opc :: body
  | .pNormTx opc ord cbody t0 t1 t2 => opc :: ord :: cbody ++ [t0, t1, t2]
  | .pMd5Tx opc ord cbody frag t0 t1 t2 => opc :: ord :: cbody ++ frag ++ [t0, t1, t2]
  | .pEncRx opc ord cbody t0 t1 t2 => opc :: ord :: cbody ++ [t0, t1, t2]
  | .nop => [commandCode .nop]
  | .reset => [commandCode .reset]
  | .sessOpen => [commandCode .sessOpen]
  | .sessKey => [commandCode .sessKey]
  | .sktGen => [commandCode .sktGen]
  | .sessClose => [commandCode .sessClose]
  | .frameWr => [commandCode .frameWr]
  | .send => [commandCode .send]
  | .cryptTx => [commandCode .cryptTx]
  | .frameRd => [commandCode .frameRd]
  | .recv => [commandCode .recv]
  | .cryptRx => [commandCode .cryptRx]

/-- Where the bytes of an instruction stand. P-ENC-RX serves both encrypted classes (30_encoding R106), and
decodes the same in either. -/
def Instr.ctx : Instr → Ctx
  | .frame d _ => .frame d
  | .pPlain d _ _ => .payload d .none
  | .pNormTx .. => .payload .tx .normal
  | .pMd5Tx .. => .payload .tx .md5
  | .pEncRx .. => .payload .rx .normal
  | .nop | .reset | .sessOpen | .sessKey | .sktGen | .sessClose => .cmd
  | .frameWr | .send | .cryptTx | .frameRd | .recv | .cryptRx => .cmd

/-- Byte number `k` of a table word, counted from the least significant. -/
def tableByte (w k : Nat) : Byte := BitVec.ofNat 8 (w >>> (8 * k))

/-- The bytes on RXS of the FRAME a 24-bit table word stands for: `magic` is bits 23..16, as the row has it,
and every payload byte, which the table gives no bits, is 0 (DEDUCED, notes/assumptions/10). -/
def tableFrame (w : Nat) : List Byte :=
  tableByte w 2 :: tableByte w 1 :: tableByte w 0 ::
    List.replicate (frameLength (tableByte w 1) (tableByte w 0)) 0#8

/-- The payload a 16-bit table word stands for: opcode in bits 15..8, ordinal in bits 7..0, an empty body and a
trailer of zeros (DEDUCED, notes/assumptions/10). -/
def tablePayload (w : Nat) : List Byte := [tableByte w 1, tableByte w 0, 0#8, 0#8, 0#8]

/-- The instruction CFE's decoders read from a table word: 8 bits are a byte written to CMD, and one that is no
command's code is the opcode of an inbound payload of class None with an empty body; 24 bits are a frame on RXS;
16 bits are an encrypted inbound payload, the only one of the three 16-bit rows that CFE decodes at all
(DEDUCED, notes/assumptions/10). -/
def decodeTableWord (nbits w : Nat) : Option Instr :=
  match nbits with
  | 8 =>
    match decode 0 .cmd [tableByte w 0] with
    | .ok (i, _) => some i
    | .error _ => (decode 0 (.payload .rx .none) [tableByte w 0]).toOption.map (·.1)
  | 16 => (decode 0 (.payload .rx .normal) (tablePayload w)).toOption.map (·.1)
  | 24 => (decode 0 (.frame .rx) (tableFrame w)).toOption.map (·.1)
  | _ => none

end Sys2Proof
end

