-- ==== Sys2Proof/Machine/Crypt.lean ====
section
/-! DEFINITION. The XOR datapath `crypt` (42_crypt R170 to R174). -/

namespace Sys2Proof.Machine

/-- A key of `crypt`: `k >= 1` bytes (42_crypt R173). The first byte stands apart, so that a key of length 0 is no
`Key`, and `crypt` has no value for one. -/
structure Key where
  first : Byte
  others : List Byte
  deriving DecidableEq, Repr

/-- The bytes of a key, `key[0]` first. -/
def Key.bytes (key : Key) : List Byte := key.first :: key.others

/-- The bytes as a key, when there is at least one (42_crypt R173). -/
def Key.ofBytes? : List Byte → Option Key
  | [] => none
  | b :: bs => some ⟨b, bs⟩

theorem Key.bytes_length_pos (key : Key) : 0 < key.bytes.length := Nat.succ_pos _

/-- `key[i mod k]` (42_crypt R170). -/
def Key.cyclic (key : Key) (i : Nat) : Byte := key.bytes[i % key.bytes.length]'(Nat.mod_lt _ key.bytes_length_pos)

/-- `si = (i div k) mod 256`, the salt index of byte `i` under a key of length `k` (42_crypt R170). -/
def saltIndex (k i : Nat) : Byte := BitVec.ofNat 8 (i / k)

/-- One step of `crypt`: byte `b` at index `i` (42_crypt R170). -/
def cryptByte (ord : Byte) (key : Key) (salt : Byte → Byte) (i : Nat) (b : Byte) : Byte :=
  let si := saltIndex key.bytes.length i
  let x := b ^^^ salt si ^^^ key.cyclic i
  if si ≠ ord then x ^^^ salt ord else x

/-- `crypt` on a slice whose first byte has index `i`. -/
def cryptFrom (ord : Byte) (key : Key) (salt : Byte → Byte) : Nat → List Byte → List Byte
  | _, [] => []
  | i, b :: bs => cryptByte ord key salt i b :: cryptFrom ord key salt (i + 1) bs

/-- `crypt(buf, ord, key, salt)` (42_crypt R170); its domain is R173's, by the type of the key. -/
def crypt (buf : List Byte) (ord : Byte) (key : Key) (salt : Byte → Byte) : List Byte :=
  cryptFrom ord key salt 0 buf

/-- `ks(i)`, the keystream (42_crypt R171). -/
def keystream (ord : Byte) (key : Key) (salt : Byte → Byte) (i : Nat) : Byte :=
  key.cyclic i ^^^ salt (saltIndex key.bytes.length i) ^^^
    (if saltIndex key.bytes.length i ≠ ord then salt ord else 0#8)

end Sys2Proof.Machine
end

