-- ==== Sys2Proof/Machine/State.lean ====
section
/-! DEFINITION. The state of CFE as plain data: every register of 10_state R22, the commands in flight (R21), the
memories of R40, the streams of R50 and R51, the OPEN parameters the step relation takes as an argument (00_scope
R9), and the model's own fields. INVENTORY.md lists each with its rule and reset value. -/

namespace Sys2Proof.Machine

/-- A RAM: the indices that hold a written byte, strictly rising. An index not listed holds no value
(10_state R49; notes/assumptions/7). -/
abbrev Memory := List Host.Cell

/-- Status codes (60_exceptions R331). Codes outside the table are never written, so there are no others. -/
inductive Status where
  | ok
  | invalidFraming
  | payloadTooLarge
  | truncatedFrame
  | transportClosed
  | emptyPayload
  | shortEncryptedPayload
  | noKeyMaterial
  | busy
  | illegalCommand
  | noSession
  | sessionDead
  | illegalState
  | illegalOperand
  deriving DecidableEq, Repr

/-- Session state (10_state R25); the value 3 is never produced. -/
inductive Session where
  | none
  | live
  | dead
  deriving DecidableEq, Repr

/-- The commands of the TX unit (30_encoding R110). -/
inductive TxCommand where
  | frameWr
  | send
  | cryptTx
  deriving DecidableEq, Repr

/-- The commands of the RX unit (30_encoding R110). -/
inductive RxCommand where
  | frameRd
  | recv
  | cryptRx
  deriving DecidableEq, Repr

/-- A TX command in flight with the operands latched at its issue (47_session_system R300). -/
structure TxFlight where
  cmd : TxCommand
  /-- Latched TX_OPC. -/
  opc : Byte
  /-- Latched TXB_LEN. -/
  len : BitVec 17
  /-- Latched ARG_ORD_TX. -/
  ord : Byte
  deriving DecidableEq, Repr

/-- An RX command in flight with the operands latched at its issue (47_session_system R300). -/
structure RxFlight where
  cmd : RxCommand
  /-- Latched ARG_ORD_RX. -/
  ord : Byte
  /-- Latched RX_OFF. -/
  off : Half
  /-- Latched RX_BLEN. -/
  blen : Half
  deriving DecidableEq, Repr

/-- The inbound stream (10_state R50). -/
structure RxStream where
  /-- Bytes appended and not yet taken. -/
  unread : List Byte
  /-- Read position: how many bytes have been taken. -/
  pos : Nat
  closed : Bool
  deriving DecidableEq, Repr

/-- One transition of one agent (60_exceptions R360), as the schedule names it. -/
inductive Move where
  /-- HOST writes register `no`; register 0 is CMD and issues a command (10_state R24). -/
  | writeReg (no : Byte) (v : Word)
  /-- HOST reads register `no`. -/
  | readReg (no : Byte)
  /-- HOST writes bytes at index `i` of a space (20_memory R66). -/
  | memWrite (sp : Space) (i : Nat) (bs : List Byte)
  /-- HOST reads `n` bytes at index `i` of a space (20_memory R66). -/
  | memRead (sp : Space) (i n : Nat)
  /-- TX makes its completion step. -/
  | tx
  /-- RX makes its completion step. -/
  | rx
  /-- ENV appends bytes to RXS (10_state R50). -/
  | feed (bs : List Byte)
  /-- ENV closes RXS (10_state R50). -/
  | close
  deriving DecidableEq, Repr

/-- Which of the two transitions of a TX or RX command `exec` makes (47_session_system R300): its issue, within a
CMD write, or the completion step of the unit (notes/assumptions/3). -/
inductive Phase where
  | issue
  | completion
  deriving DecidableEq, Repr

/-- What the host's last read returned (notes/assumptions/14). -/
inductive HostPort where
  | nothing
  | value (v : Word)
  | bytes (bs : List Byte)
  deriving DecidableEq, Repr

/-- Why the machine stops with a fault. Errors of CFE are status codes (60_exceptions R331), not faults. -/
inductive Fault where
  /-- A host access that starts at index `i` reaches beyond a space's size, where no index exists (20_memory R67). Raised by
  `State.hostWrite` and `State.hostRead`. Safe: the machine stops (notes/assumptions/15). -/
  | noSuchIndex (sp : Space) (i : Nat)
  deriving DecidableEq, Repr

/-- Why a step has no meaning. -/
inductive Refusal where
  /-- An instruction without a meaning, by its mnemonic. Raised by no arm of `exec`. Safe. -/
  | notModelled (mnemonic : String)
  /-- A host access to TXB while TX_BUSY, or to RXB while RX_BUSY (93_implementation_defined U4: a model gives
  the host no such transition). Raised by `State.hostWrite` and `State.hostRead`. Safe (notes/assumptions/15). -/
  | bufferBusy (sp : Space)
  /-- ENV feeds or closes a stream that is not bound, or feeds a closed one (10_state R50; 60_exceptions R360: not
  enabled). Raised by `State.feed` and `State.close`. Safe (notes/assumptions/15). -/
  | streamNotOpen
  deriving DecidableEq, Repr

/-- The state of CFE. -/
structure State where
  /-- ISSUE_STATUS, register 1 (10_state R35). -/
  issueStatus : Status
  /-- SESS, register 2 (R25). -/
  sess : Session
  /-- CIPHER_VALID, bit 0 of FLAGS (R26). -/
  cipherValid : Bool
  /-- SKT_VALID, bit 1 of FLAGS (R26). -/
  sktValid : Bool
  /-- ORD, register 4 (R28). -/
  ord : Byte
  /-- LCG, register 5 (R29). -/
  lcg : Word
  /-- SEED, register 6 (R27). -/
  seed : Byte
  /-- KEY_LEN, register 7 (R30). -/
  keyLen : Byte
  /-- ARG_SEED, register 8 (R33). -/
  argSeed : Byte
  /-- PB_LEN, register 9 (R33). -/
  pbLen : Byte
  /-- TX_OPC, register 10 (R31). -/
  txOpc : Byte
  /-- TXB_LEN, register 11 (R31). -/
  txbLen : BitVec 17
  /-- ARG_ORD_TX, register 12 (R31). -/
  argOrdTx : Byte
  /-- TX_STATUS, register 13 (R32). -/
  txStatus : Status
  /-- TX_CLASS, register 14 (R32). -/
  txClass : Cls
  /-- TX_A, register 15 (R32). -/
  txA : Half
  /-- TX_B, register 16 (R32). -/
  txB : Byte
  /-- ARG_ORD_RX, register 17 (R34). -/
  argOrdRx : Byte
  /-- RX_STATUS, register 18 (R34). -/
  rxStatus : Status
  /-- RXB_LEN, register 19 (R34). -/
  rxbLen : Half
  /-- RX_OPC, register 20 (R34). -/
  rxOpc : Byte
  /-- RX_CLASS, register 21 (R34). -/
  rxClass : Cls
  /-- RX_ORD, register 22 (R34). -/
  rxOrd : Byte
  /-- RX_A, register 23 (R34). -/
  rxA : Half
  /-- RX_B, register 24 (R34). -/
  rxB : Byte
  /-- RX_OFF, register 25 (R34). -/
  rxOff : Half
  /-- RX_BLEN, register 26 (R34). -/
  rxBlen : Half
  /-- The TX command in flight; TX_BUSY is that there is one (R21, R26; notes/assumptions/4). -/
  txFlight : Option TxFlight
  /-- The RX command in flight; RX_BUSY is that there is one (R21, R26; notes/assumptions/4). -/
  rxFlight : Option RxFlight
  /-- SALT_TX (R41). -/
  saltTx : Memory
  /-- SALT_RX (R41). -/
  saltRx : Memory
  /-- KEY_RAW (R42). -/
  keyRaw : Memory
  /-- SKT (R43). -/
  skt : Memory
  /-- PB (R44). -/
  pb : Memory
  /-- TXB (R45). -/
  txb : Memory
  /-- RXB (R46). -/
  rxb : Memory
  /-- RXS, `none` when no stream is bound (R50, R55). -/
  rxs : Option RxStream
  /-- TXS, the bytes appended in order; `none` when no stream is bound (R51, R55). -/
  txs : Option (List Byte)
  /-- The TXS of earlier sessions, oldest first: the environment's history (47_session_system R306;
  notes/assumptions/12). -/
  txsHistory : List (List Byte)
  /-- The OPEN parameters; the ROMs ENC_TX and ENC_RX hold two of them (R47). Never changed (00_scope R9;
  notes/assumptions/5). -/
  cfg : Config
  /-- The transitions still to come, next first (notes/assumptions/1). -/
  moves : List Move
  /-- How many transitions have been made: what a free value depends on (notes/assumptions/6). -/
  tick : Nat
  /-- Which transition of a TX or RX command `exec` makes (notes/assumptions/3). -/
  phase : Phase
  /-- What the host's last read returned (notes/assumptions/14). -/
  hostPort : HostPort
  deriving DecidableEq, Repr

/-- The state after power-on (10_state R55; 70_reset_and_hazards R370): every register 0 but LCG, which is 1; no
RAM holds a value; no stream is bound; nothing is in flight. The ROMs and the other OPEN parameters are the
device's. The model's own fields start as notes/assumptions/8 says. -/
def State.reset : State where
  issueStatus := .ok
  sess := .none
  cipherValid := false
  sktValid := false
  ord := 0#8
  lcg := 1#32
  seed := 0#8
  keyLen := 0#8
  argSeed := 0#8
  pbLen := 0#8
  txOpc := 0#8
  txbLen := 0#17
  argOrdTx := 0#8
  txStatus := .ok
  txClass := .none
  txA := 0#16
  txB := 0#8
  argOrdRx := 0#8
  rxStatus := .ok
  rxbLen := 0#16
  rxOpc := 0#8
  rxClass := .none
  rxOrd := 0#8
  rxA := 0#16
  rxB := 0#8
  rxOff := 0#16
  rxBlen := 0#16
  txFlight := none
  rxFlight := none
  saltTx := []
  saltRx := []
  keyRaw := []
  skt := []
  pb := []
  txb := []
  rxb := []
  rxs := none
  txs := none
  txsHistory := []
  cfg := Config.device
  moves := []
  tick := 0
  phase := .issue
  hostPort := .nothing

end Sys2Proof.Machine
end

