-- ==== Sys2Proof/Machine/Flags.lean ====
section
/-! DEFINITION. Status words: the FLAGS register (10_state R26), the numbers of the status codes and their kinds
(60_exceptions R330, R331), the session state and class as register values (10_state R22). CFE has no arithmetic
flag (10_state R36). -/

namespace Sys2Proof.Machine

/-- The number of a status code (60_exceptions R331). -/
def Status.code : Status → Byte
  | .ok => 0#8
  | .invalidFraming => 1#8
  | .payloadTooLarge => 2#8
  | .truncatedFrame => 3#8
  | .transportClosed => 4#8
  | .emptyPayload => 5#8
  | .shortEncryptedPayload => 6#8
  | .noKeyMaterial => 16#8
  | .busy => 32#8
  | .illegalCommand => 33#8
  | .noSession => 34#8
  | .sessionDead => 35#8
  | .illegalState => 36#8
  | .illegalOperand => 37#8

/-- The fatal errors (60_exceptions R330, R331): codes 1 to 6. -/
def Status.fatal : Status → Bool
  | .invalidFraming | .payloadTooLarge | .truncatedFrame => true
  | .transportClosed | .emptyPayload | .shortEncryptedPayload => true
  | .ok | .noKeyMaterial | .busy | .illegalCommand => false
  | .noSession | .sessionDead | .illegalState | .illegalOperand => false

/-- SESS as a register value (10_state R25). -/
def Session.code : Session → Byte
  | .none => 0#8
  | .live => 1#8
  | .dead => 2#8

end Sys2Proof.Machine

namespace Sys2Proof

/-- A class as its 2-bit stored value (10_state R47). -/
def Cls.code : Cls → Byte
  | .none => 0#8
  | .normal => 1#8
  | .md5 => 2#8

end Sys2Proof

namespace Sys2Proof.Machine

/-- TX_BUSY (10_state R26). -/
def State.txBusy (s : State) : Bool := s.txFlight.isSome

/-- RX_BUSY (10_state R26). -/
def State.rxBusy (s : State) : Bool := s.rxFlight.isSome

/-- The FLAGS register (10_state R26): bits 0 to 3, bits 7:4 zero. -/
def State.flags (s : State) : Byte :=
  0#4 ++ BitVec.ofBool s.rxBusy ++ BitVec.ofBool s.txBusy ++ BitVec.ofBool s.sktValid ++ BitVec.ofBool s.cipherValid

end Sys2Proof.Machine
end

