-- ==== Sys2Proof/Machine/Md5.lean ====
section
/-! DEFINITION. The MD5 digest, the hexadecimal encoder and the special key table generator
(43_md5_hex R190 to R211; 44_special_key_table R220 to R222). -/

namespace Sys2Proof.Machine

/-- The four chaining variables (43_md5_hex R194). -/
structure Md5State where
  a : Word
  b : Word
  c : Word
  d : Word
  deriving DecidableEq, Repr

/-- Initial chaining values (43_md5_hex R194). -/
def md5Init : Md5State := ⟨0x67452301#32, 0xefcdab89#32, 0x98badcfe#32, 0x10325476#32⟩

/-- `n` bytes of a number, least significant first (43_md5_hex R192, R199). -/
def leBytes : Nat → Nat → List Byte
  | 0, _ => []
  | n + 1, v => BitVec.ofNat 8 v :: leBytes n (v / 256)

/-- The number of bytes, least significant first (43_md5_hex R193). -/
def leNat : List Byte → Nat
  | [] => 0
  | b :: bs => b.toNat + 256 * leNat bs

/-- Number of zero bytes of the padding: the fewest that make the length 56 modulo 64 (43_md5_hex R192). -/
def md5Zeros (m : Nat) : Nat := (119 - m % 64) % 64

/-- The padded message (43_md5_hex R192). -/
def md5Pad (s : List Byte) : List Byte :=
  s ++ [0x80#8] ++ List.replicate (md5Zeros s.length) 0#8 ++ leBytes 8 (8 * s.length)

/-- Words `M[0]` to `M[15]` of a block (43_md5_hex R193). -/
def md5Words (block : List Byte) : List Word :=
  (List.range 16).map fun j => BitVec.ofNat 32 (leNat ((block.drop (4 * j)).take 4))

/-- The auxiliary function of step `t` (43_md5_hex R195). -/
def md5F (t : Nat) (b c d : Word) : Word :=
  if t < 16 then (b &&& c) ||| (~~~b &&& d)
  else if t < 32 then (d &&& b) ||| (~~~d &&& c)
  else if t < 48 then b ^^^ c ^^^ d
  else c ^^^ (b ||| ~~~d)

/-- The message word index of step `t` (43_md5_hex R196). -/
def md5G (t : Nat) : Nat :=
  if t < 16 then t
  else if t < 32 then (5 * t + 1) % 16
  else if t < 48 then (3 * t + 5) % 16
  else 7 * t % 16

/-- The rotation amounts of the four rounds (43_md5_hex R197). -/
def md5Shifts : List (List Nat) := [[7, 12, 17, 22], [5, 9, 14, 20], [4, 11, 16, 23], [6, 10, 15, 21]]

/-- `S[t]` (43_md5_hex R197). -/
def md5S (t : Nat) : Nat := (md5Shifts.getD (t / 16) []).getD (t % 4) 0

/-- The constants `K[0]` to `K[63]` (43_md5_hex R198). -/
def md5K : List Word :=
  [0xd76aa478#32, 0xe8c7b756#32, 0x242070db#32, 0xc1bdceee#32, 0xf57c0faf#32, 0x4787c62a#32, 0xa8304613#32, 0xfd469501#32] ++
  [0x698098d8#32, 0x8b44f7af#32, 0xffff5bb1#32, 0x895cd7be#32, 0x6b901122#32, 0xfd987193#32, 0xa679438e#32, 0x49b40821#32] ++
  [0xf61e2562#32, 0xc040b340#32, 0x265e5a51#32, 0xe9b6c7aa#32, 0xd62f105d#32, 0x02441453#32, 0xd8a1e681#32, 0xe7d3fbc8#32] ++
  [0x21e1cde6#32, 0xc33707d6#32, 0xf4d50d87#32, 0x455a14ed#32, 0xa9e3e905#32, 0xfcefa3f8#32, 0x676f02d9#32, 0x8d2a4c8a#32] ++
  [0xfffa3942#32, 0x8771f681#32, 0x6d9d6122#32, 0xfde5380c#32, 0xa4beea44#32, 0x4bdecfa9#32, 0xf6bb4b60#32, 0xbebfbc70#32] ++
  [0x289b7ec6#32, 0xeaa127fa#32, 0xd4ef3085#32, 0x04881d05#32, 0xd9d4d039#32, 0xe6db99e5#32, 0x1fa27cf8#32, 0xc4ac5665#32] ++
  [0xf4292244#32, 0x432aff97#32, 0xab9423a7#32, 0xfc93a039#32, 0x655b59c3#32, 0x8f0ccc92#32, 0xffeff47d#32, 0x85845dd1#32] ++
  [0x6fa87e4f#32, 0xfe2ce6e0#32, 0xa3014314#32, 0x4e0811a1#32, 0xf7537e82#32, 0xbd3af235#32, 0x2ad7d2bb#32, 0xeb86d391#32]

/-- Step `t` on the chaining variables (43_md5_hex R199). -/
def md5Step (m : List Word) (v : Md5State) (t : Nat) : Md5State :=
  let x := md5F t v.b v.c v.d + v.a + md5K.getD t 0#32 + m.getD (md5G t) 0#32
  ⟨v.d, v.b + x.rotateLeft (md5S t), v.b, v.c⟩

/-- The update by one block (43_md5_hex R199). -/
def md5Block (v : Md5State) (block : List Byte) : Md5State :=
  let w := (List.range 64).foldl (md5Step (md5Words block)) v
  ⟨v.a + w.a, v.b + w.b, v.c + w.c, v.d + w.d⟩

/-- The 64-byte blocks of a padded message, in order (43_md5_hex R193). -/
def md5Blocks (p : List Byte) : List (List Byte) :=
  (List.range (p.length / 64)).map fun j => (p.drop (64 * j)).take 64

/-- The digest as bytes: `a0`, `b0`, `c0`, `d0`, each least significant byte first (43_md5_hex R199). -/
def md5Output (v : Md5State) : List Byte :=
  leBytes 4 v.a.toNat ++ leBytes 4 v.b.toNat ++ leBytes 4 v.c.toNat ++ leBytes 4 v.d.toNat

/-- `md5(s)`, 16 bytes (43_md5_hex R190). -/
def md5 (s : List Byte) : List Byte :=
  md5Output ((md5Blocks (md5Pad s)).foldl md5Block md5Init)

/-- The lower-case digit of a nibble (43_md5_hex R210). -/
def hexDigit (n : Nat) : Byte := BitVec.ofNat 8 (if n < 10 then 0x30 + n else 0x57 + n)

/-- `hex(s)`: for each byte the digit of its high nibble, then of its low nibble (43_md5_hex R210). -/
def hex : List Byte → List Byte
  | [] => []
  | b :: bs => hexDigit (b.toNat / 16) :: hexDigit (b.toNat % 16) :: hex bs

/-- The table after `j` appended digests, starting from `t` (44_special_key_table R220). -/
def sktAppend : Nat → List Byte → List Byte
  | 0, t => t
  | j + 1, t => sktAppend j (t ++ hex (md5 t))

/-- `skt_gen(s)`, 1024 bytes (44_special_key_table R220). -/
def sktGen (s : List Byte) : List Byte :=
  sktAppend sktRounds (hex (md5 (hex (md5 s))))

end Sys2Proof.Machine
end

