-- ==== Sys2Proof/Machine/Keys.lean ====
section
/-! DEFINITION. Per-packet key derivation, classifier and trailer functions (45_key_derivation R240 to R259). -/

namespace Sys2Proof.Machine

/-- `lcg_next(st)` (45_key_derivation R240). -/
def lcgNext (st : Word) : Word := st * lcgMul + lcgInc

/-- `special_key_seed`: bits 30:16 of the state after the step (45_key_derivation R241). -/
def specialKeySeed (st : Word) : Nat := (st >>> 16 &&& 0x7FFF#32).toNat

/-- The outbound `a` from the state after the step (45_key_derivation R242). -/
def outboundA (st : Word) : Half := BitVec.ofNat 16 (specialKeySeed st % aMod + aOff)

/-- Index of byte `i` of the sampled key (45_key_derivation R245). -/
def key9Index (a : Half) (b : Byte) (i : Nat) : Nat :=
  (i * (9 * i + b.toNat * b.toNat) + a.toNat) % sktLen

/-- `key9(T, a, b)` (45_key_derivation R245), the table given by its bytes. -/
def key9 (t : Nat → Byte) (a : Half) (b : Byte) : List Byte :=
  (List.range key9Len).map fun i => t (key9Index a b i)

/-- `classify(dir, opc)` (45_key_derivation R250). -/
def classify (c : Config) (d : Dir) (opc : Byte) : Cls :=
  match d with
  | .tx => c.encTx[opc.toNat]'opc.isLt
  | .rx => c.encRx[opc.toNat]'opc.isLt

/-- `trailer_pack(a, b)` in the order of `TRAILER_ORDER` (45_key_derivation R255; 30_encoding R101, R102). -/
def trailerPack (o : TrailerOrder) (a : Half) (b : Byte) : Byte × Byte × Byte :=
  let lo := (a ^^^ maskA).extractLsb' 0 8
  let hi := (a ^^^ maskA).extractLsb' 8 8
  let bm := b ^^^ maskB
  match o with
  | .loBHi => (lo, bm, hi)
  | .loHiB => (lo, hi, bm)
  | .bLoHi => (bm, lo, hi)
  | .bHiLo => (bm, hi, lo)
  | .hiLoB => (hi, lo, bm)
  | .hiBLo => (hi, bm, lo)

/-- `trailer_unpack([t0, t1, t2])` (45_key_derivation R257). -/
def trailerUnpack (o : TrailerOrder) (t0 t1 t2 : Byte) : Half × Byte :=
  let join (hi lo : Byte) : Half := (hi ++ lo) ^^^ maskA
  match o with
  | .loBHi => (join t2 t0, t1 ^^^ maskB)
  | .loHiB => (join t1 t0, t2 ^^^ maskB)
  | .bLoHi => (join t2 t1, t0 ^^^ maskB)
  | .bHiLo => (join t1 t2, t0 ^^^ maskB)
  | .hiLoB => (join t0 t1, t2 ^^^ maskB)
  | .hiBLo => (join t0 t2, t1 ^^^ maskB)

/-- `hash_frag(P)` (45_key_derivation R258): the digest bytes at `HASH_FRAG_OFFSETS`. -/
def hashFrag (c : Config) (p : List Byte) : List Byte :=
  let digest := md5 p
  c.fragOffsets.map fun o => digest.getD o.val 0#8

end Sys2Proof.Machine
end

