-- ==== Sys2Proof/Machine/Salt.lean ====
section
/-! DEFINITION. The salt table generator (41_salt_table R150 to R158). -/

namespace Sys2Proof.Machine

/-- `SALT_FORMULA(seed, i)`, 0 outside its domain, which no rule reaches (41_salt_table R150). -/
def saltFormula (c : Config) (seed i : Nat) : Int :=
  if h : seed < 10 ∧ i < 256 then (c.salt[seed]'h.1)[i]'h.2 else 0

/-- `low8(v)`: the low byte of the two's-complement representation (00_scope R16). -/
def low8 (v : Int) : Byte := BitVec.ofInt 8 v

/-- `replicate32(v)`: the low byte of the signed intermediate in all four bytes of a word (41_salt_table R151). -/
def replicate32 (v : Int) : Word := low8 v ++ low8 v ++ low8 v ++ low8 v

/-- Entry `i` of `salt_build(seed)` (41_salt_table R150): seeds above `SEED_MAX` give 0 (R154). -/
def saltEntry (c : Config) (seed : Byte) (i : Nat) : Byte :=
  (replicate32 (if seed.toNat ≤ seedMax then saltFormula c seed.toNat i else 0)).extractLsb' 0 8

/-- `salt_build(seed)`, 256 bytes (41_salt_table R150). -/
def saltBuild (c : Config) (seed : Byte) : List Byte :=
  (List.range saltLen).map (saltEntry c seed)

/-- `SALT_FORMULA` as the spec's default instantiation has it (41_salt_table R153, from general knowledge there).
It is one value of the parameter, used by the vectors of 95_test_vectors; no meaning uses it. -/
def defaultSaltFormula (seed i : Nat) : Int :=
  let v : Int := i
  match seed with
  | 0 => v
  | 1 => (if i % 2 = 1 then -1 else 1) * (v + 1).tdiv 2 + 128
  | 2 => 255 - v
  | 3 => (if i % 2 = 1 then -1 else 1) * (255 - v).tdiv 2 + 128
  | 4 => v.tdiv 16 * v.tdiv 16
  | 5 => (2 * v).tmod 256
  | 6 => 255 - (2 * v).tmod 256
  | 7 => if 127 < v then 2 * v - 256 else 255 - 2 * v
  | 8 => if 127 < v then 511 - 2 * v else 2 * v
  | 9 => 255 - ((v - 128).tdiv 8 * (v - 128).tdiv 8).tmod 256
  | _ => 0

/-- The classifier `ENC_EX` of the vectors (95_test_vectors section 7). -/
def exampleClass (opc : Nat) : Cls :=
  match opc with
  | 0x00 | 0x10 => .none
  | 0x02 | 0x03 => .normal
  | _ => .md5

/-- The instantiation of the OPEN parameters that the vectors of 95_test_vectors assume: `ENC_EX` in both
directions and the defaults of 92_eei_decisions D10, D12, D13. For tests; no meaning uses it. -/
def vectorConfig : Config where
  salt := Vector.ofFn fun s => Vector.ofFn fun i => defaultSaltFormula s.val i.val
  encTx := Vector.ofFn fun o => exampleClass o.val
  encRx := Vector.ofFn fun o => exampleClass o.val
  fragOffsets := [13, 3, 11, 7]
  trailerOrder := .loBHi

end Sys2Proof.Machine
end

