-- ==== Sys2Proof/Machine/Ops.lean ====
section
/-! DEFINITION. The named operations of the machine: memory, streams, raising an error (the one error entry of CFE,
60_exceptions R340, R341) and leaving a dead session (R342), frames, and the shared parts of the commands. -/

namespace Sys2Proof.Machine

/-! ### Memory (10_state R40, R49) -/

/-- The canonical form: indices strictly rising. Every listed index holds a byte and an unlisted one holds no
value, so no entry can equal what an unlisted index reads as (notes/assumptions/7). -/
abbrev Memory.wf (m : Memory) : Prop := m.Pairwise fun c d => c.1 < d.1

/-- The byte an index holds, `none` where it holds no value. -/
def Memory.byte? (m : Memory) (i : Nat) : Option Byte := (m.find? fun c => c.1 == i).map (·.2)

/-- The cells of consecutive bytes from an index. -/
def cellsAt : Nat → List Byte → Memory
  | _, [] => []
  | i, b :: bs => (i, b) :: cellsAt (i + 1) bs

/-- `MemWrite(SP:i, len(bs), bs)` (00_scope R17). -/
def Memory.store (m : Memory) (i : Nat) (bs : List Byte) : Memory :=
  m.filter (fun c => decide (c.1 < i)) ++ cellsAt i bs ++ m.filter (fun c => decide (i + bs.length ≤ c.1))

/-- The memory of a space; a ROM holds the stored values of its table (10_state R47). -/
def State.ram (s : State) : Space → Memory
  | .saltTx => s.saltTx
  | .saltRx => s.saltRx
  | .keyRaw => s.keyRaw
  | .skt => s.skt
  | .pb => s.pb
  | .txb => s.txb
  | .rxb => s.rxb
  | .encTx => cellsAt 0 (s.cfg.encTx.toList.map Cls.code)
  | .encRx => cellsAt 0 (s.cfg.encRx.toList.map Cls.code)

/-- The byte the engine reads at an index: a free byte where none is held (10_state R49;
93_implementation_defined U3; notes/assumptions/6). -/
def State.byteAt (s : State) (sp : Space) (i : Nat) : Byte :=
  ((s.ram sp).byte? i).getD (Config.freeByte s.tick sp i)

/-- `MemRead(SP:i, n)` (00_scope R17). -/
def State.memRead (s : State) (sp : Space) (i n : Nat) : List Byte :=
  (List.range n).map fun k => s.byteAt sp (i + k)

/-- Whether an index holds a value for the host (10_state R49): the key memories only while their valid bit is 1,
KEY_RAW below KEY_LEN (R42), RXB below RXB_LEN (R46). -/
def State.holdsValue (s : State) (sp : Space) (i : Nat) : Bool :=
  match sp with
  | .saltTx | .saltRx => s.cipherValid
  | .keyRaw => s.cipherValid && decide (i < s.keyLen.toNat)
  | .skt => s.sktValid
  | .rxb => decide (i < s.rxbLen.toNat)
  | .pb | .txb | .encTx | .encRx => true

/-- The byte a host read returns (10_state R49; 93_implementation_defined U3). -/
def State.hostByte (s : State) (sp : Space) (i : Nat) : Byte :=
  if s.holdsValue sp i then s.byteAt sp i else Config.freeByte s.tick sp i

/-- A buffer the host may not touch now (20_memory R66): TXB while TX_BUSY, RXB while RX_BUSY. -/
def State.bufferBusy (s : State) : Space → Bool
  | .txb => s.txBusy
  | .rxb => s.rxBusy
  | .saltTx | .saltRx | .keyRaw | .skt | .pb | .encTx | .encRx => false

/-- The host's `MemWrite` (20_memory R66): PB and TXB take the bytes, every other space ignores the write. An
access to TXB while TX_BUSY or to RXB while RX_BUSY is refused (R380; 93_implementation_defined U4). -/
def State.hostWrite (s : State) (sp : Space) (i : Nat) (bs : List Byte) : Host.Outcome State Fault Refusal :=
  if sp.size < i + bs.length then .fault (.noSuchIndex sp i)
  else if s.bufferBusy sp then .refused (.bufferBusy sp)
  else
    match sp with
    | .pb => .next { s with pb := s.pb.store i bs }
    | .txb => .next { s with txb := s.txb.store i bs }
    | .saltTx | .saltRx | .keyRaw | .skt | .rxb | .encTx | .encRx => .next s

/-- The host's `MemRead` (20_memory R66): the bytes stand in the host's port. -/
def State.hostRead (s : State) (sp : Space) (i n : Nat) : Host.Outcome State Fault Refusal :=
  if sp.size < i + n then .fault (.noSuchIndex sp i)
  else if s.bufferBusy sp then .refused (.bufferBusy sp)
  else .next { s with hostPort := .bytes ((List.range n).map fun k => s.hostByte sp (i + k)) }

/-! ### Streams (10_state R50, R51) -/

/-- ENV appends bytes to RXS (10_state R50; 60_exceptions R360). R360 gives ENV an append of one or more bytes: that an
append of none to an open stream passes, changing nothing, is the model's choice (DESIGN CHOICE,
notes/assumptions/2). -/
def State.feed (s : State) (bs : List Byte) : Host.Outcome State Fault Refusal :=
  match s.rxs with
  | some q => if q.closed then .refused .streamNotOpen
              else .next { s with rxs := some { q with unread := q.unread ++ bs } }
  | none => .refused .streamNotOpen

/-- ENV closes RXS (10_state R50; 60_exceptions R360). -/
def State.close (s : State) : Host.Outcome State Fault Refusal :=
  match s.rxs with
  | some q => .next { s with rxs := some { q with closed := true } }
  | none => .refused .streamNotOpen

/-- `RxTake(n)` on the stream: the first `n` unread bytes are gone (00_scope R17). -/
def RxStream.take (q : RxStream) (n : Nat) : RxStream :=
  { q with unread := q.unread.drop n, pos := q.pos + n }

/-- `RxTake(n)` (00_scope R17). -/
def State.rxTake (s : State) (n : Nat) : State := { s with rxs := s.rxs.map (·.take n) }

/-- `TxAppend(bs)` (00_scope R17; 10_state R51). -/
def State.txAppend (s : State) (bs : List Byte) : State := { s with txs := s.txs.map (· ++ bs) }

/-- Both streams are unbound; what TXS held is the environment's history (47_session_system R306;
notes/assumptions/12). -/
def State.unbind (s : State) : State :=
  { s with rxs := none, txs := none, txsHistory := s.txsHistory ++ s.txs.toList }

/-- A fresh empty open RXS and a fresh empty TXS (47_session_system R302). -/
def State.bindFresh (s : State) : State :=
  { s.unbind with rxs := some { unread := [], pos := 0, closed := false }, txs := some [] }

/-! ### Completion, error entry (60_exceptions R330, R340, R341) and the way out (R342) -/

/-- ISSUE_STATUS gets a code (10_state R35). -/
def State.setIssue (s : State) (e : Status) : State := { s with issueStatus := e }

/-- A direction's command completes: its status register gets the code and its busy bit is cleared
(10_state R32, R34). -/
def State.finish (s : State) (d : Dir) (e : Status) : State :=
  match d with
  | .tx => { s with txStatus := e, txFlight := none }
  | .rx => { s with rxStatus := e, rxFlight := none }

/-- `raise E` in a completion step (60_exceptions R340, R341): the status register gets `E`, the busy bit is
cleared, a fatal `E` makes the session DEAD, and nothing else is written. -/
def State.raise (s : State) (d : Dir) (e : Status) : State :=
  if e.fatal then { s.finish d e with sess := .dead } else s.finish d e

/-- What SESS.OPEN and SESS.CLOSE clear (47_session_system R302, R306): ORD, LCG, the valid bits, KEY_LEN, SEED,
registers 13 to 16 and 18 to 26. Memories keep their bits. -/
def State.clearSession (s : State) : State :=
  { s with
    ord := ordInit, lcg := lcgSeed
    cipherValid := false, sktValid := false, keyLen := 0#8, seed := 0#8
    txStatus := .ok, txClass := .none, txA := 0#16, txB := 0#8
    rxStatus := .ok, rxbLen := 0#16, rxOpc := 0#8, rxClass := .none
    rxOrd := 0#8, rxA := 0#16, rxB := 0#8, rxOff := 0#16, rxBlen := 0#16 }

/-- SESS.OPEN's effect, the return from DEAD (47_session_system R302; 60_exceptions R342). -/
def State.openSession (s : State) : State :=
  { s.clearSession.bindFresh with sess := .live, issueStatus := .ok }

/-- SESS.CLOSE's effect (47_session_system R306). -/
def State.closeSession (s : State) : State :=
  { s.clearSession.unbind with sess := .none, issueStatus := .ok }

/-- RESET's effect (47_session_system R301): the state of power-on. What is not CFE's is kept: the parameters, the
environment's history, and the model's own fields (notes/assumptions/13). -/
def State.resetMachine (s : State) : State :=
  { State.reset with
    txsHistory := s.unbind.txsHistory, cfg := s.cfg
    moves := s.moves, tick := s.tick, phase := s.phase, hostPort := s.hostPort }

/-! ### Keys (45_key_derivation R247; 46_send_recv R271, R281) -/

/-- The raw key, `KEY_RAW[0..KEY_LEN-1]` (10_state R42), where a command may use it: not with CIPHER_VALID = 0, and not
with KEY_LEN = 0, where there is no key (42_crypt R173, R175; 46_send_recv R271). -/
def State.rawKey (s : State) : Option Key :=
  if s.cipherValid then Key.ofBytes? (s.memRead .keyRaw 0 s.keyLen.toNat) else none

/-- The key sampled from SKT (45_key_derivation R245), where a command may use it: not with CIPHER_VALID = 0, and not
with SKT_VALID = 0 (46_send_recv R271, R281). -/
def State.sampledKey (s : State) (a : Half) (b : Byte) : Option Key :=
  if s.cipherValid && s.sktValid then Key.ofBytes? (key9 (s.byteAt .skt) a b) else none

/-- `effective_key(class, a, b)` (45_key_derivation R247), `none` where the key checks of 46_send_recv R271, R281 raise
NoKeyMaterial; class None has no key. -/
def State.effectiveKey (s : State) (cls : Cls) (a : Half) (b : Byte) : Option Key :=
  match cls with
  | .none => none
  | .normal => s.rawKey
  | .md5 => s.sampledKey a b

/-- The salt table of a direction (10_state R41). -/
def State.salt (s : State) (d : Dir) (si : Byte) : Byte :=
  match d with
  | .tx => s.byteAt .saltTx si.toNat
  | .rx => s.byteAt .saltRx si.toNat

/-! ### The TX unit -/

/-- `frame_write(p)` and the completion after it (40_frame_codec R135, R136; 20_memory R70). -/
def State.frameWrite (s : State) (p : List Byte) : State :=
  if maxPayload < p.length then s.raise .tx .payloadTooLarge
  else (s.txAppend (frameBytes p)).finish .tx .ok

/-- What sending an encrypted packet does (46_send_recv R270, R272): TX_CLASS, the ciphertext in place in TXB, one
step of the generator, TX_A, TX_B, the next ordinal, and the frame of the payload `p`. The callers test the size of
`p` first (R273). -/
def State.sendEncrypted (s : State) (cls : Cls) (ord : Byte) (cbody : List Byte) (a : Half) (b : Byte)
    (p : List Byte) : State :=
  { s with
    txClass := cls, txb := s.txb.store 0 cbody
    lcg := lcgNext s.lcg, txA := a, txB := b, ord := ord + 1#8 }.frameWrite p

/-- Sending the payload `p` of an outbound encrypted wire format. One that no frame carries raises PayloadTooLarge with
TX_CLASS written and, as for SEND, nothing else advanced (46_send_recv R273; 60_exceptions R340). No packet that
decodes is so long and `step` never runs one: that R273 holds here is the model's choice (DESIGN CHOICE,
notes/assumptions/9). -/
def State.sendPacket (s : State) (cls : Cls) (ord : Byte) (cbody : List Byte) (a : Half) (b : Byte)
    (p : List Byte) : State :=
  if maxPayload < p.length then { s with txClass := cls }.raise .tx .payloadTooLarge
  else s.sendEncrypted cls ord cbody a b p

/-- The payload of an outbound encrypted packet: P-NORM-TX, or P-MD5-TX with its hash fragments
(30_encoding R103 to R105). -/
def State.encryptedPayload (s : State) (cls : Cls) (opc ord : Byte) (cbody : List Byte) (a : Half) (b : Byte) :
    List Byte :=
  let (t0, t1, t2) := trailerPack s.cfg.trailerOrder a b
  match cls with
  | .md5 => encode (.pMd5Tx opc ord cbody (hashFrag s.cfg (opc :: ord :: cbody)) t0 t1 t2)
  | .none | .normal => encode (.pNormTx opc ord cbody t0 t1 t2)

/-- Bytes of an encrypted payload besides the body (46_send_recv R270): 5, and NFRAG for class Md5. -/
def State.overhead (s : State) (cls : Cls) : Nat :=
  match cls with
  | .md5 => 5 + s.cfg.nfrag
  | .none | .normal => 5

/-- The completion step of SEND (46_send_recv R270). -/
def State.sendComplete (s : State) (f : TxFlight) : State :=
  let cls := classify s.cfg .tx f.opc
  let n := f.len.toNat
  let s1 := { s with txClass := cls }
  let body := s.memRead .txb 0 n
  if cls = .none then s1.frameWrite (f.opc :: body)
  else
    let a := outboundA (lcgNext s.lcg)
    match s.effectiveKey cls a bTx with
    | none => s1.raise .tx .noKeyMaterial
    | some key =>
      if maxPayload < s.overhead cls + n then s1.raise .tx .payloadTooLarge
      else
        let cbody := crypt body s.ord key (s.salt .tx)
        s.sendEncrypted cls s.ord cbody a bTx (s.encryptedPayload cls f.opc s.ord cbody a bTx)

/-- The completion step of FRAME.WR (40_frame_codec R135). -/
def State.frameWrComplete (s : State) (f : TxFlight) : State :=
  s.frameWrite (s.memRead .txb 0 f.len.toNat)

/-- The completion step of CRYPT.TX (42_crypt R175). -/
def State.cryptTxComplete (s : State) (f : TxFlight) : State :=
  match s.rawKey with
  | none => s.raise .tx .noKeyMaterial
  | some key =>
    let buf := s.memRead .txb 0 f.len.toNat
    { s with txb := s.txb.store 0 (crypt buf f.ord key (s.salt .tx)) }.finish .tx .ok

/-! ### The RX unit -/

/-- What `frame_read` finds (40_frame_codec R130). -/
inductive FrameRead where
  /-- Not enough bytes yet, and the stream is open (R132). -/
  | hold
  /-- A whole frame stands at the front; its payload. -/
  | payload (p : List Byte)
  /-- An error, and how many bytes are taken (R133, R134). -/
  | error (e : Status) (taken : Nat)
  deriving DecidableEq, Repr

/-- `frame_read()` on a stream (40_frame_codec R130): the decoder of frames on the unread bytes, and what the
closed flag makes of a frame that is not whole. -/
def RxStream.frameRead (q : RxStream) : FrameRead :=
  match decodeFrame q.unread with
  | .ok (p, _) => .payload p
  | .error (.badMagic _) => .error .invalidFraming 3
  | .error _ =>
    if q.closed then
      if q.unread = [] then .error .transportClosed 0 else .error .truncatedFrame q.unread.length
    else .hold

/-- `MemWrite(RXB:0, len(p), p); RXB_LEN <- len(p)` (40_frame_codec R130; 46_send_recv R280). -/
def State.storePayload (s : State) (p : List Byte) : State :=
  { s with rxb := s.rxb.store 0 p, rxbLen := BitVec.ofNat 16 p.length }

/-- The body window (10_state R34). -/
def State.setWindow (s : State) (off blen : Nat) : State :=
  { s with rxOff := BitVec.ofNat 16 off, rxBlen := BitVec.ofNat 16 blen }

/-- FRAME.RD with a payload read (40_frame_codec R130, R131). -/
def State.deliverRaw (s : State) (p : List Byte) : State :=
  ((s.storePayload p).setWindow 0 p.length).finish .rx .ok

/-- Decryption of a received packet (46_send_recv R280, R283). -/
def State.recvDecrypt (s : State) (key : Key) (ord : Byte) (cbody : List Byte) (a : Half) (b : Byte) : State :=
  let plain := crypt cbody ord key (s.salt .rx)
  ({ s with rxb := s.rxb.store 2 plain, rxOrd := ord, rxA := a, rxB := b }.setWindow 2 cbody.length).finish .rx .ok

/-- RECV with a payload read (46_send_recv R280 to R286). -/
def State.deliverClassified (s : State) (p : List Byte) : State :=
  let s1 := s.storePayload p
  match p with
  | [] => (s1.setWindow 0 0).raise .rx .emptyPayload
  | opc :: body =>
    let cls := classify s.cfg .rx opc
    let s2 := { s1 with rxOpc := opc, rxClass := cls }
    if cls = .none then (s2.setWindow 1 body.length).finish .rx .ok
    else
      let s3 := s2.setWindow 0 p.length
      match splitEncrypted p with
      | none => s3.raise .rx .shortEncryptedPayload
      | some (_, ord, cbody, t0, t1, t2) =>
        let ab := trailerUnpack s.cfg.trailerOrder t0 t1 t2
        match s.effectiveKey cls ab.1 ab.2 with
        | none => s3.raise .rx .noKeyMaterial
        | some key => s3.recvDecrypt key ord cbody ab.1 ab.2

/-- What the RX command in flight does with a payload read: RECV classifies it, FRAME.RD does not look inside
(40_frame_codec R131; 46_send_recv R280). -/
def State.deliver (s : State) (p : List Byte) : State :=
  match s.rxFlight.map RxFlight.cmd with
  | some .recv => s.deliverClassified p
  | some .frameRd | some .cryptRx | none => s.deliverRaw p

/-- RX takes the frame that carries payload `p` from the front of RXS and goes on with `p`. -/
def State.takeFrame (s : State) (p : List Byte) : State := s.rxTake (3 + p.length)

/-- The completion step of FRAME.RD and RECV: `frame_read`, then `k` on the payload (40_frame_codec R130; 46_send_recv
R280). Held, or without a bound stream, the unit makes no step (R132; notes/assumptions/2, 20). -/
def State.frameReadThen (s : State) (k : State → List Byte → State) : State :=
  match s.rxs.map RxStream.frameRead with
  | none | some .hold => s
  | some (.payload p) => k (s.takeFrame p) p
  | some (.error e taken) => (s.rxTake taken).raise .rx e

/-- The completion step of CRYPT.RX (42_crypt R176). -/
def State.cryptRxComplete (s : State) (f : RxFlight) : State :=
  match s.rawKey with
  | none => s.raise .rx .noKeyMaterial
  | some key =>
    let buf := s.memRead .rxb f.off.toNat f.blen.toNat
    { s with rxb := s.rxb.store f.off.toNat (crypt buf f.ord key (s.salt .rx)) }.finish .rx .ok

end Sys2Proof.Machine
end

