-- ==== Sys2Proof/Machine/Operands.lean ====
section
/-! DEFINITION. The register file as the host sees it (10_state R22 to R37), and how a command is issued and its
operands are latched (47_session_system R300). -/

namespace Sys2Proof.Machine

/-- `x[no]` (10_state R22): the value a host read of a register returns. CMD reads 0 (R24), a reserved number
reads 0 (R37). -/
def State.readReg (s : State) (no : Byte) : Word :=
  match no.toNat with
  | 1 => s.issueStatus.code.setWidth 32
  | 2 => s.sess.code.setWidth 32
  | 3 => s.flags.setWidth 32
  | 4 => s.ord.setWidth 32
  | 5 => s.lcg
  | 6 => s.seed.setWidth 32
  | 7 => s.keyLen.setWidth 32
  | 8 => s.argSeed.setWidth 32
  | 9 => s.pbLen.setWidth 32
  | 10 => s.txOpc.setWidth 32
  | 11 => s.txbLen.setWidth 32
  | 12 => s.argOrdTx.setWidth 32
  | 13 => s.txStatus.code.setWidth 32
  | 14 => s.txClass.code.setWidth 32
  | 15 => s.txA.setWidth 32
  | 16 => s.txB.setWidth 32
  | 17 => s.argOrdRx.setWidth 32
  | 18 => s.rxStatus.code.setWidth 32
  | 19 => s.rxbLen.setWidth 32
  | 20 => s.rxOpc.setWidth 32
  | 21 => s.rxClass.code.setWidth 32
  | 22 => s.rxOrd.setWidth 32
  | 23 => s.rxA.setWidth 32
  | 24 => s.rxB.setWidth 32
  | 25 => s.rxOff.setWidth 32
  | 26 => s.rxBlen.setWidth 32
  | _ => 0#32

/-- `x[no] <- v` by the host for a register other than CMD (10_state R22, R23; 00_scope R17): an operand register
takes the value truncated to its width; a read-only or reserved one ignores it (93_implementation_defined U1, U9). -/
def State.writeReg (s : State) (no : Byte) (v : Word) : State :=
  match no.toNat with
  | 8 => { s with argSeed := v.setWidth 8 }
  | 9 => { s with pbLen := v.setWidth 8 }
  | 10 => { s with txOpc := v.setWidth 8 }
  | 11 => { s with txbLen := v.setWidth 17 }
  | 12 => { s with argOrdTx := v.setWidth 8 }
  | 17 => { s with argOrdRx := v.setWidth 8 }
  | _ => s

/-- The host reads a register into its port (notes/assumptions/14). -/
def State.hostReadReg (s : State) (no : Byte) : State := { s with hostPort := .value (s.readReg no) }

/-- A TX command in flight as latched at issue (47_session_system R300 step 9). -/
def State.latchTx (s : State) (c : TxCommand) : TxFlight := ⟨c, s.txOpc, s.txbLen, s.argOrdTx⟩

/-- An RX command in flight as latched at issue (47_session_system R300 step 9). -/
def State.latchRx (s : State) (c : RxCommand) : RxFlight := ⟨c, s.argOrdRx, s.rxOff, s.rxBlen⟩

/-- Step 6 of the issue (47_session_system R300): `run` in a LIVE session, else NoSession or SessionDead. -/
def State.ifLive (s : State) (run : State) : State :=
  match s.sess with
  | .none => s.setIssue .noSession
  | .dead => s.setIssue .sessionDead
  | .live => run

/-- Issue of a TX command (47_session_system R300 steps 4, 6, 7, 9). -/
def State.issueTx (s : State) (c : TxCommand) : State :=
  if s.txBusy then s.setIssue .busy
  else s.ifLive <|
    if txbCap < s.txbLen.toNat then s.setIssue .illegalOperand
    else { s.setIssue .ok with txFlight := some (s.latchTx c) }

/-- Issue of an RX command (47_session_system R300 steps 4, 6, 9). -/
def State.issueRx (s : State) (c : RxCommand) : State :=
  if s.rxBusy then s.setIssue .busy
  else s.ifLive { s.setIssue .ok with rxFlight := some (s.latchRx c) }

/-- Issue of a system command that needs both directions idle (47_session_system R300 step 4). -/
def State.ifIdle (s : State) (run : State) : State :=
  if s.txBusy || s.rxBusy then s.setIssue .busy else run

/-- The TX unit's completion step, or its turn passes when it has no command (60_exceptions R360;
notes/assumptions/2). -/
def State.withTx (s : State) (run : TxFlight → State) : State :=
  match s.txFlight with
  | some f => run f
  | none => s

/-- The RX unit's completion step, or its turn passes when it has no command (60_exceptions R360;
notes/assumptions/2). -/
def State.withRx (s : State) (run : RxFlight → State) : State :=
  match s.rxFlight with
  | some f => run f
  | none => s

/-- A TX or RX command is two transitions: its issue and its completion (47_session_system R300;
notes/assumptions/3). -/
def State.byPhase (s : State) (issue completion : State) : State :=
  match s.phase with
  | .issue => issue
  | .completion => completion

end Sys2Proof.Machine
end

