-- ==== Sys2Proof/Machine/Rx.lean ====
section
/-! DEFINITION. The RX commands: FRAME.RD, RECV, CRYPT.RX (40_frame_codec R130; 46_send_recv R280; 42_crypt R176),
each an issue and a completion. -/

namespace Sys2Proof.Machine

/-- FRAME.RD (40_frame_codec R130). -/
def execFrameRd (s : State) : Host.Outcome State Fault Refusal :=
  .next (s.byPhase (s.issueRx .frameRd) (s.withRx fun _ => s.frameReadThen State.deliverRaw))

/-- RECV (46_send_recv R280). -/
def execRecv (s : State) : Host.Outcome State Fault Refusal :=
  .next (s.byPhase (s.issueRx .recv) (s.withRx fun _ => s.frameReadThen State.deliverClassified))

/-- CRYPT.RX (42_crypt R176). -/
def execCryptRx (s : State) : Host.Outcome State Fault Refusal :=
  .next (s.byPhase (s.issueRx .cryptRx) (s.withRx s.cryptRxComplete))

end Sys2Proof.Machine
end

