-- ==== Sys2Proof/Machine/System.lean ====
section
/-! DEFINITION. The system commands: NOP, RESET, SESS.OPEN, SESS.KEY, SKT.GEN, SESS.CLOSE
(47_session_system R300 to R308; 44_special_key_table R225). Each executes whole within its CMD write. -/

namespace Sys2Proof.Machine

/-- NOP (47_session_system R308). -/
def execNop (s : State) : Host.Outcome State Fault Refusal :=
  .next (s.setIssue .ok)

/-- RESET (47_session_system R301): accepted in every state. -/
def execReset (s : State) : Host.Outcome State Fault Refusal :=
  .next s.resetMachine

/-- SESS.OPEN (47_session_system R302). -/
def execSessOpen (s : State) : Host.Outcome State Fault Refusal :=
  .next (s.ifIdle s.openSession)

/-- SESS.KEY (47_session_system R303): refused with IllegalState when the session is keyed (R300 step 8). -/
def execSessKey (s : State) : Host.Outcome State Fault Refusal :=
  .next <| s.ifIdle <| s.ifLive <|
    if s.cipherValid then s.setIssue .illegalState
    else
      { s with
        saltTx := s.saltTx.store 0 (saltBuild s.cfg s.argSeed)
        saltRx := s.saltRx.store 0 (saltBuild s.cfg s.argSeed)
        keyRaw := s.keyRaw.store 0 (s.memRead .pb 0 s.pbLen.toNat)
        seed := s.argSeed, keyLen := s.pbLen
        cipherValid := true, issueStatus := .ok }

/-- SKT.GEN (44_special_key_table R225). -/
def execSktGen (s : State) : Host.Outcome State Fault Refusal :=
  .next <| s.ifIdle <| s.ifLive
    { s with
      skt := s.skt.store 0 (sktGen (s.memRead .pb 0 s.pbLen.toNat))
      sktValid := true, issueStatus := .ok }

/-- SESS.CLOSE (47_session_system R306). -/
def execSessClose (s : State) : Host.Outcome State Fault Refusal :=
  .next (s.ifIdle s.closeSession)

end Sys2Proof.Machine
end

