-- ==== Sys2Proof/Machine/Tx.lean ====
section
/-! DEFINITION. The TX commands: FRAME.WR, SEND, CRYPT.TX (40_frame_codec R135; 46_send_recv R270; 42_crypt R175),
each an issue and a completion. -/

namespace Sys2Proof.Machine

/-- FRAME.WR (40_frame_codec R135). -/
def execFrameWr (s : State) : Host.Outcome State Fault Refusal :=
  .next (s.byPhase (s.issueTx .frameWr) (s.withTx s.frameWrComplete))

/-- SEND (46_send_recv R270). -/
def execSend (s : State) : Host.Outcome State Fault Refusal :=
  .next (s.byPhase (s.issueTx .send) (s.withTx s.sendComplete))

/-- CRYPT.TX (42_crypt R175). -/
def execCryptTx (s : State) : Host.Outcome State Fault Refusal :=
  .next (s.byPhase (s.issueTx .cryptTx) (s.withTx s.cryptTxComplete))

end Sys2Proof.Machine
end

