-- ==== Sys2Proof/Machine/Wire.lean ====
section
/-! DEFINITION. The wire formats FRAME, P-PLAIN, P-NORM-TX, P-MD5-TX, P-ENC-RX (30_encoding R90 to R106). The
meaning of a wire format is what a completion step does with a packet of it: outbound, the TX unit puts it on TXS;
inbound, the RX unit takes it from the front of RXS (DESIGN CHOICE, notes/assumptions/9). The completion
steps of the commands are these: Obligations.SendRunsTheSelectedFormat and its neighbours state it. -/

namespace Sys2Proof.Machine

/-- FRAME (30_encoding R90): outbound it is appended to TXS (40_frame_codec R135); inbound it is taken from RXS and
its payload goes to the RX command in flight (R130, R131; 46_send_recv R280). -/
def execFrame (d : Dir) (p : List Byte) (s : State) : Host.Outcome State Fault Refusal :=
  match d with
  | .tx => .next (s.frameWrite p)
  | .rx => .next ((s.takeFrame p).deliver p)

/-- P-PLAIN (30_encoding R94): outbound SEND of class None (46_send_recv R274), inbound RECV of its payload
(R282). -/
def execPPlain (d : Dir) (opc : Byte) (body : List Byte) (s : State) : Host.Outcome State Fault Refusal :=
  match d with
  | .tx => .next ({ s with txClass := .none }.frameWrite (encode (.pPlain .tx opc body)))
  | .rx =>
    let p := encode (.pPlain .rx opc body)
    .next ((s.takeFrame p).deliverClassified p)

/-- P-NORM-TX (30_encoding R103; 46_send_recv R272, R273). -/
def execPNormTx (opc ord : Byte) (cbody : List Byte) (t0 t1 t2 : Byte) (s : State) :
    Host.Outcome State Fault Refusal :=
  let (a, b) := trailerUnpack s.cfg.trailerOrder t0 t1 t2
  .next (s.sendPacket .normal ord cbody a b (encode (.pNormTx opc ord cbody t0 t1 t2)))

/-- P-MD5-TX (30_encoding R104, R105; 46_send_recv R272, R273). -/
def execPMd5Tx (opc ord : Byte) (cbody frag : List Byte) (t0 t1 t2 : Byte) (s : State) :
    Host.Outcome State Fault Refusal :=
  let (a, b) := trailerUnpack s.cfg.trailerOrder t0 t1 t2
  .next (s.sendPacket .md5 ord cbody a b (encode (.pMd5Tx opc ord cbody frag t0 t1 t2)))

/-- P-ENC-RX (30_encoding R106; 46_send_recv R283). -/
def execPEncRx (opc ord : Byte) (cbody : List Byte) (t0 t1 t2 : Byte) (s : State) :
    Host.Outcome State Fault Refusal :=
  let p := encode (.pEncRx opc ord cbody t0 t1 t2)
  .next ((s.takeFrame p).deliverClassified p)

end Sys2Proof.Machine
end

