-- ==== Sys2Proof/Machine/Dispatch.lean ====
section
/-! DEFINITION. `exec`: one arm per instruction, each one call of its meaning. -/

namespace Sys2Proof.Machine

def exec (i : Instr) (s : State) : Host.Outcome State Fault Refusal :=
  match i with
  | .nop => Sys2Proof.Machine.execNop s
  | .reset => Sys2Proof.Machine.execReset s
  | .sessOpen => Sys2Proof.Machine.execSessOpen s
  | .sessKey => Sys2Proof.Machine.execSessKey s
  | .sktGen => Sys2Proof.Machine.execSktGen s
  | .sessClose => Sys2Proof.Machine.execSessClose s
  | .frameWr => Sys2Proof.Machine.execFrameWr s
  | .send => Sys2Proof.Machine.execSend s
  | .cryptTx => Sys2Proof.Machine.execCryptTx s
  | .frameRd => Sys2Proof.Machine.execFrameRd s
  | .recv => Sys2Proof.Machine.execRecv s
  | .cryptRx => Sys2Proof.Machine.execCryptRx s
  | .frame d p => Sys2Proof.Machine.execFrame d p s
  | .pPlain d opc body => Sys2Proof.Machine.execPPlain d opc body s
  | .pNormTx opc ord cbody t0 t1 t2 => Sys2Proof.Machine.execPNormTx opc ord cbody t0 t1 t2 s
  | .pMd5Tx opc ord cbody frag t0 t1 t2 => Sys2Proof.Machine.execPMd5Tx opc ord cbody frag t0 t1 t2 s
  | .pEncRx opc ord cbody t0 t1 t2 => Sys2Proof.Machine.execPEncRx opc ord cbody t0 t1 t2 s

end Sys2Proof.Machine
end

