-- ==== Sys2Proof/Machine/Agents.lean ====
section
/-! DEFINITION. The transitions of the agents (60_exceptions R360): how a CMD write is decoded and issued, how a command
in flight is completed, the host's accesses and the environment's moves; and where an instruction stands that the next
transition is to run. -/

namespace Sys2Proof.Machine

/-- The instruction of a TX command. -/
def TxCommand.instr : TxCommand → Instr
  | .frameWr => .frameWr
  | .send => .send
  | .cryptTx => .cryptTx

/-- The instruction of an RX command. -/
def RxCommand.instr : RxCommand → Instr
  | .frameRd => .frameRd
  | .recv => .recv
  | .cryptRx => .cryptRx

/-- The transition at the head of the schedule is being made. -/
def State.advance (s : State) (rest : List Move) : State := { s with moves := rest, tick := s.tick + 1 }

/-- `exec` as a completion step: the phase is set for it and set back after it. -/
def complete (i : Instr) (s : State) : Host.Outcome State Fault Refusal :=
  match exec i { s with phase := .completion } with
  | .next t => .next { t with phase := .issue }
  | .fault r => .fault r
  | .refused r => .refused r

/-- A write of CMD (47_session_system R300): the code is decoded; an illegal one writes ISSUE_STATUS only
(30_encoding R113). -/
def issueCommand (code : Byte) (s : State) : Host.Outcome State Fault Refusal :=
  match decode s.cfg.nfrag .cmd [code] with
  | .ok (i, _) => exec i s
  | .error _ => .next (s.setIssue .illegalCommand)

/-- One transition by its agent (60_exceptions R360). An agent without a command in flight passes its turn. -/
def runMove (m : Move) (s : State) : Host.Outcome State Fault Refusal :=
  match m with
  | .writeReg no v => if no = 0#8 then issueCommand (v.setWidth 8) s else .next (s.writeReg no v)
  | .readReg no => .next (s.hostReadReg no)
  | .memWrite sp i bs => s.hostWrite sp i bs
  | .memRead sp i n => s.hostRead sp i n
  | .tx =>
    match s.txFlight with
    | some f => complete f.cmd.instr s
    | none => .next s
  | .rx =>
    match s.rxFlight with
    | some f => complete f.cmd.instr s
    | none => .next s
  | .feed bs => s.feed bs
  | .close => s.close

/-- A payload of a class stands in a frame at the front of RXS, RECV is in flight, RX is next, and ENC_RX gives the
payload's opcode its class (notes/assumptions/10). -/
def State.placePayload (s : State) (opc : Byte) (cls : Cls) (p : List Byte) : State :=
  { s with
    rxs := some { unread := frameBytes p, pos := 0, closed := false }
    rxFlight := some (s.latchRx .recv)
    cfg := { s.cfg with encRx := Vector.ofFn fun o => if o.val = opc.toNat then cls else s.cfg.encRx[o.val] }
    moves := .rx :: s.moves }

/-- Store the instruction of a table word where the next step fetches it (notes/assumptions/10, 11): a command is the
host's next CMD write; a payload is placed for RECV; a frame stands at the front of RXS with FRAME.RD in flight and RX
next. -/
def State.placeFetchWord (s : State) (nbits w : Nat) : State :=
  match nbits with
  | 8 =>
    match decodeCommand (tableByte w 0) with
    | .ok _ => { s with moves := .writeReg 0#8 (BitVec.ofNat 32 (w % 256)) :: s.moves }
    | .error _ => s.placePayload (tableByte w 0) .none [tableByte w 0]
  | 16 => s.placePayload (tableByte w 1) .normal (tablePayload w)
  | 24 =>
    { s with
      rxs := some { unread := tableFrame w, pos := 0, closed := false }
      rxFlight := some (s.latchRx .frameRd)
      moves := .rx :: s.moves }
  | _ => s

end Sys2Proof.Machine
end

