-- ==== Sys2Proof/Machine/Step.lean ====
section
/-! DEFINITION. One step: the next transition of the schedule (60_exceptions R360, R361; notes/assumptions/1). -/

namespace Sys2Proof.Machine

/-- One step of the machine. With nothing scheduled nothing happens (70_reset_and_hazards R372). -/
def step (s : State) : Host.Outcome State Fault Refusal :=
  match s.moves with
  | [] => .next s
  | m :: rest => runMove m (s.advance rest)

/-- The instruction of a table word stored where the next step fetches it (notes/assumptions/10, 11). -/
def State.withFetchWord (s : State) (nbits w : Nat) : State := s.placeFetchWord nbits w

end Sys2Proof.Machine
end

