-- ==== Sys2Proof/Safety.lean ====
section
/-! DEFINITION. What a safe run is, in the terms the statements use: the invariant of the states a run from reset
reaches, and the moves that R66 and R360 give the agents. -/

namespace Sys2Proof.Machine

/-- An ASCII lower-case hexadecimal digit (44_special_key_table R221). -/
abbrev Byte.isHexDigit (b : Byte) : Prop :=
  (0x30 ≤ b.toNat ∧ b.toNat ≤ 0x39) ∨ (0x61 ≤ b.toNat ∧ b.toNat ≤ 0x66)

/-- Every memory has the canonical form and lists only indices that exist (10_state R40; 20_memory R67). -/
def State.memoriesOk (s : State) : Prop :=
  ∀ sp, (s.ram sp).wf ∧ ∀ c ∈ s.ram sp, c.1 < sp.size

/-- The result registers 13 to 16 and 18 to 26 are 0 (10_state R55, R56). -/
def State.resultsClear (s : State) : Prop :=
  s.txStatus = .ok ∧ s.txClass = .none ∧ s.txA = 0#16 ∧ s.txB = 0#8 ∧
  s.rxStatus = .ok ∧ s.rxbLen = 0#16 ∧ s.rxOpc = 0#8 ∧ s.rxClass = .none ∧
  s.rxOrd = 0#8 ∧ s.rxA = 0#16 ∧ s.rxB = 0#8 ∧ s.rxOff = 0#16 ∧ s.rxBlen = 0#16

/-- What holds of every state a run from reset reaches. -/
structure State.Inv (s : State) : Prop where
  /-- Memories are canonical and within their spaces. -/
  memories : s.memoriesOk
  /-- Between steps `exec` stands at its issue phase. -/
  issuePhase : s.phase = .issue
  /-- Without a session nothing is in flight, no stream is bound and everything the session owned is clear
  (10_state R55; 47_session_system R306). -/
  noSession : s.sess = .none →
    s.txFlight = none ∧ s.rxFlight = none ∧ s.rxs = none ∧ s.txs = none ∧ s.ord = 0#8 ∧ s.lcg = 1#32 ∧
    s.cipherValid = false ∧ s.sktValid = false ∧ s.resultsClear
  /-- A session has both streams (47_session_system R302). -/
  bound : s.sess ≠ .none → s.rxs.isSome ∧ s.txs.isSome
  /-- Without CIPHER_VALID there is no key and no seed (10_state R26, R30). -/
  noKey : s.cipherValid = false → s.keyLen = 0#8 ∧ s.seed = 0#8
  /-- With CIPHER_VALID both salt tables are `salt_build(SEED)` (10_state R41). -/
  saltTables : s.cipherValid = true → ∀ i < 256,
    s.saltTx.byte? i = some (saltEntry s.cfg s.seed i) ∧ s.saltRx.byte? i = some (saltEntry s.cfg s.seed i)
  /-- With CIPHER_VALID the raw key is held (10_state R42). -/
  keyHeld : s.cipherValid = true → ∀ i < s.keyLen.toNat, (s.keyRaw.byte? i).isSome
  /-- With SKT_VALID the special key table is held and is hexadecimal digits (44_special_key_table R221). -/
  sktDigits : s.sktValid = true → ∀ i < 1024, ∃ b, s.skt.byte? i = some b ∧ Byte.isHexDigit b
  /-- The body window lies in the payload (10_state R34). -/
  window : s.rxOff.toNat + s.rxBlen.toNat ≤ s.rxbLen.toNat
  /-- The payload of RXB is held (10_state R46). -/
  payloadHeld : ∀ i < s.rxbLen.toNat, (s.rxb.byte? i).isSome
  /-- A TX command in flight has a legal length (47_session_system R300 step 7). -/
  txLength : ∀ f, s.txFlight = some f → f.len.toNat ≤ txbCap
  /-- The window does not move while an RX command is in flight. -/
  rxWindow : ∀ f, s.rxFlight = some f → f.off = s.rxOff ∧ f.blen = s.rxBlen

/-- The state right after power-on or RESET, but for the parameters and the model's own fields (10_state R55;
70_reset_and_hazards R370): every register 0 but LCG, no RAM holds a value, no stream is bound, nothing is in
flight. -/
def State.powerOn (s : State) : Prop :=
  (∀ no : Byte, s.readReg no = if no = 5#8 then 1#32 else 0#32) ∧
  (∀ sp i, sp ≠ .encTx → sp ≠ .encRx → (s.ram sp).byte? i = none) ∧
  s.rxs = none ∧ s.txs = none ∧ s.txFlight = none ∧ s.rxFlight = none

/-- The operand registers, the only ones a host write changes (10_state R23). -/
def operandRegisters : List Byte := [8#8, 9#8, 10#8, 11#8, 12#8, 17#8]

/-- Width of an operand register (10_state R22). -/
def operandWidth (no : Byte) : Nat := if no = 11#8 then 17 else 8

/-- The legal command codes (30_encoding R110). -/
def commandCodes : List Byte :=
  [0x00#8, 0x01#8, 0x02#8, 0x03#8, 0x04#8, 0x05#8, 0x10#8, 0x11#8, 0x12#8, 0x20#8, 0x21#8, 0x22#8]

/-- The ordinal counter and the generator agree on how many encrypted packets the session has sent
(60_exceptions R351). -/
def State.countsSends (s : State) : Prop :=
  ∃ k : Nat, s.ord = BitVec.ofNat 8 k ∧ s.lcg = lcgNext^[k] 1#32

/-- The moves the spec gives the agents: a host access to existing indices of a buffer that is not busy (20_memory
R66), ENV on a bound, open stream (10_state R50; 60_exceptions R360), every register access. R360 gives TX a
transition only while TX_BUSY = 1 and RX only while RX_BUSY = 1 and not held, and ENV an append of one or more bytes:
the turn that passes instead, and an append of no bytes, are allowed as well (DESIGN CHOICE, notes/assumptions/2). -/
def State.allows (s : State) : Move → Bool
  | .memWrite sp i bs => decide (i + bs.length ≤ sp.size) && !s.bufferBusy sp
  | .memRead sp i n => decide (i + n ≤ sp.size) && !s.bufferBusy sp
  | .feed _ => s.rxs.any fun q => !q.closed
  | .close => s.rxs.isSome
  | .writeReg .. | .readReg _ | .tx | .rx => true

end Sys2Proof.Machine
end

