-- ==== Sys2Proof/Certificates/Slice0/Obligations.lean ====
section
/-! DEFINITION. The statements for the provers. Each docstring names the rule of spec/ it formalises. A completion is
stated on a state whose phase is `completion` and which has the command in flight; an issue on a state whose phase is
`issue`. Where a statement gives the next state whole, as an update of the state before, everything the update does not
name is unchanged: every other register, memory, stream and parameter. -/

open Sys2Proof Sys2Proof.Machine

/-! ### Reset and the register file -/

/-- 10_state R55, 70_reset_and_hazards R370: power-on and the RESET command leave every register 0 but LCG, no RAM with a
value, no stream bound and nothing in flight; the parameters are the device's, or kept. -/
def Obligations.PowerOnAndResetLeaveSpecValues : Prop :=
  State.reset.powerOn ∧ State.reset.cfg = Config.device ∧
  ∀ s : State, ∃ t, exec .reset s = .next t ∧ t.powerOn ∧ t.cfg = s.cfg

/-- 47_session_system R301: RESET in every state, also with commands in flight, gives the power-on state. That the
environment's history and the model's own fields stay is the model's choice (notes/assumptions/12, 13). -/
def Obligations.ResetCommandCancelsEverything : Prop :=
  ∀ s : State, exec .reset s = .next
    { State.reset with
      txsHistory := s.txsHistory ++ s.txs.toList, cfg := s.cfg, moves := s.moves, tick := s.tick, phase := s.phase,
      hostPort := s.hostPort }

/-- 10_state R22, R23, 00_scope R17: a step in which the host writes a register other than CMD. An operand register reads
back the value truncated to its width and every other register reads as before; a write of any other number changes no
register. -/
def Obligations.HostWritesOnlyOperandRegisters : Prop :=
  ∀ (s : State) (no : Byte) (v : Word) (rest : List Move), s.moves = .writeReg no v :: rest → no ≠ 0#8 →
    ∃ t, step s = .next t ∧
      (∀ m : Byte, t.readReg m =
        if no ∈ operandRegisters ∧ m = no then BitVec.ofNat 32 (v.toNat % 2 ^ operandWidth no) else s.readReg m) ∧
      (∀ sp, t.ram sp = s.ram sp) ∧ t.rxs = s.rxs ∧ t.txs = s.txs ∧ t.txFlight = s.txFlight ∧
      t.rxFlight = s.rxFlight ∧ (no ∉ operandRegisters → t = s.advance rest)

/-- 10_state R22, R24, R37: what the host reads in each of the registers 0 to 26, and that registers 27 to 255 read 0 and
ignore writes; a read changes nothing but the host's port (notes/assumptions/14). The numbers of the status codes
(60_exceptions R331), of SESS (10_state R25) and of the classes (R47) are stated with them. -/
def Obligations.RegisterReadsFollowTheTable : Prop :=
  (∀ (s : State) (no : Byte) (rest : List Move), s.moves = .readReg no :: rest →
    let table : List Nat :=
      [0, s.issueStatus.code.toNat, s.sess.code.toNat, s.flags.toNat, s.ord.toNat, s.lcg.toNat, s.seed.toNat] ++
      [s.keyLen.toNat, s.argSeed.toNat, s.pbLen.toNat, s.txOpc.toNat, s.txbLen.toNat, s.argOrdTx.toNat] ++
      [s.txStatus.code.toNat, s.txClass.code.toNat, s.txA.toNat, s.txB.toNat, s.argOrdRx.toNat] ++
      [s.rxStatus.code.toNat, s.rxbLen.toNat, s.rxOpc.toNat, s.rxClass.code.toNat, s.rxOrd.toNat, s.rxA.toNat] ++
      [s.rxB.toNat, s.rxOff.toNat, s.rxBlen.toNat]
    step s = .next { s.advance rest with hostPort := .value (BitVec.ofNat 32 (table.getD no.toNat 0)) }) ∧
  (∀ (s : State) (no : Byte) (v : Word) (rest : List Move), 27 ≤ no.toNat → s.moves = .writeReg no v :: rest →
    step s = .next (s.advance rest)) ∧
  [Status.ok, .invalidFraming, .payloadTooLarge, .truncatedFrame, .transportClosed, .emptyPayload].map Status.code ++
    [Status.shortEncryptedPayload, .noKeyMaterial, .busy, .illegalCommand, .noSession, .sessionDead].map Status.code ++
    [Status.illegalState, .illegalOperand].map Status.code
    = [0#8, 1#8, 2#8, 3#8, 4#8, 5#8, 6#8, 16#8, 32#8, 33#8, 34#8, 35#8, 36#8, 37#8] ∧
  [Session.none, .live, .dead].map Session.code = [0#8, 1#8, 2#8] ∧
  [Cls.none, .normal, .md5].map Cls.code = [0#8, 1#8, 2#8]

/-- 10_state R26: the bits of FLAGS. -/
def Obligations.FlagsRegisterBits : Prop :=
  ∀ s : State,
    s.flags.getLsbD 0 = s.cipherValid ∧ s.flags.getLsbD 1 = s.sktValid ∧
    s.flags.getLsbD 2 = s.txFlight.isSome ∧ s.flags.getLsbD 3 = s.rxFlight.isSome ∧
    ∀ k, 4 ≤ k → s.flags.getLsbD k = false

/-! ### Encoding and the step -/

/-- 30_encoding R90, R94, R103, R104, R106, R110: decoding the bytes of a well-formed instruction gives it back. -/
def Obligations.WellFormedInstructionsRoundTrip : Prop :=
  ∀ (nfrag : Nat) (i : Instr), i.wellFormed nfrag = true → decode nfrag i.ctx (encode i) = .ok (i, [])

/-- 30_encoding R91: a frame ends where its length says, and the next frame begins there. -/
def Obligations.FramesAreSelfDelimiting : Prop :=
  ∀ (nfrag : Nat) (d : Dir) (p rest : List Byte), p.length ≤ 65535 →
    decode nfrag (.frame d) (magic :: BitVec.ofNat 8 (p.length / 256) :: BitVec.ofNat 8 (p.length % 256) :: (p ++ rest))
      = .ok (.frame d p, rest)

/-- 30_encoding R90 to R94, R108, R110: what is decoded is what was there, and is well formed. -/
def Obligations.DecodedBytesReencode : Prop :=
  ∀ (nfrag : Nat) (c : Ctx) (bs rest : List Byte) (i : Instr), decode nfrag c bs = .ok (i, rest) →
    encode i ++ rest = bs ∧ i.wellFormed nfrag = true

/-- 30_encoding R110, R90, R106: words written out from the spec's encodings. -/
def Obligations.SpecWordsDecode : Prop :=
  decode 4 .cmd [0x00#8] = .ok (.nop, []) ∧ decode 4 .cmd [0x04#8] = .ok (.sktGen, []) ∧
  decode 4 .cmd [0x11#8] = .ok (.send, []) ∧ decode 4 .cmd [0x22#8] = .ok (.cryptRx, []) ∧
  decode 4 (.frame .rx) [0xAA#8, 0x00#8, 0x01#8, 0x7E#8, 0xAA#8] = .ok (.frame .rx [0x7E#8], [0xAA#8]) ∧
  decode 4 (.payload .rx .md5) [0x05#8, 0x2A#8, 0x03#8, 0x44#8, 0x61#8, 0x66#8]
    = .ok (.pEncRx 0x05#8 0x2A#8 [0x03#8] 0x44#8 0x61#8 0x66#8, [])

/-- 30_encoding R113: an illegal code writes ISSUE_STATUS and has no other effect, in every state. -/
def Obligations.IllegalCodesWriteIssueStatusOnly : Prop :=
  ∀ (s : State) (v : Word) (rest : List Move), s.moves = .writeReg 0#8 v :: rest → v.setWidth 8 ∉ commandCodes →
    step s = .next { s.advance rest with issueStatus := .illegalCommand }

/-- 47_session_system R300, 60_exceptions R360: a CMD write runs the instruction its code decodes to. -/
def Obligations.StepRunsDecodedCommand : Prop :=
  ∀ (s : State) (v : Word) (rest : List Move) (i : Instr), s.moves = .writeReg 0#8 v :: rest →
    decode s.cfg.nfrag .cmd [v.setWidth 8] = .ok (i, []) → step s = exec i (s.advance rest)

/-- 47_session_system R300, 60_exceptions R360: TX and RX run the command in flight as a completion step. R360 gives TX
and RX no transition without a command in flight: that such a turn passes, changing nothing but the schedule, is the
model's choice (DESIGN CHOICE, notes/assumptions/2). -/
def Obligations.StepRunsCommandInFlight : Prop :=
  ∀ (s t : State) (rest : List Move),
    (∀ f, s.moves = .tx :: rest → s.txFlight = some f →
      exec f.cmd.instr { s.advance rest with phase := .completion } = .next t →
      step s = .next { t with phase := .issue }) ∧
    (∀ f, s.moves = .rx :: rest → s.rxFlight = some f →
      exec f.cmd.instr { s.advance rest with phase := .completion } = .next t →
      step s = .next { t with phase := .issue }) ∧
    (s.moves = .tx :: rest → s.txFlight = none → step s = .next (s.advance rest)) ∧
    (s.moves = .rx :: rest → s.rxFlight = none → step s = .next (s.advance rest))

/-- 30_encoding R94, 46_send_recv R270: the completion of SEND is the outbound wire format its class selects, with the
ordinal, ciphertext, fragments and trailer of this packet. What `exec` of P-PLAIN, P-NORM-TX and P-MD5-TX means is the
model's choice (DESIGN CHOICE, notes/assumptions/9); this says that SEND agrees with it. -/
def Obligations.SendRunsTheSelectedFormat : Prop :=
  ∀ (s : State) (f : TxFlight), s.phase = .completion → s.txFlight = some f →
    let n := f.len.toNat
    let body := s.memRead .txb 0 n
    let a := outboundA (lcgNext s.lcg)
    let t := trailerPack s.cfg.trailerOrder a 100#8
    (classify s.cfg .tx f.opc = .none → exec .send s = exec (.pPlain .tx f.opc body) s) ∧
    (∀ key : Key, key.bytes = s.memRead .keyRaw 0 s.keyLen.toNat →
      classify s.cfg .tx f.opc = .normal → s.cipherValid = true → s.keyLen ≠ 0#8 → 5 + n ≤ 65535 →
      exec .send s =
        exec (.pNormTx f.opc s.ord (crypt body s.ord key (s.salt .tx)) t.1 t.2.1 t.2.2) s) ∧
    (∀ key : Key, key.bytes = key9 (s.byteAt .skt) a 100#8 →
      classify s.cfg .tx f.opc = .md5 → s.cipherValid = true → s.sktValid = true → 5 + s.cfg.nfrag + n ≤ 65535 →
      let c := crypt body s.ord key (s.salt .tx)
      exec .send s = exec (.pMd5Tx f.opc s.ord c (hashFrag s.cfg (f.opc :: s.ord :: c)) t.1 t.2.1 t.2.2) s)

/-- 40_frame_codec R130, 46_send_recv R280: the completion of FRAME.RD or RECV with a whole frame at the front of RXS is
the frame the decoder reads there, and for RECV the payload format its class selects. What `exec` of an inbound FRAME,
P-PLAIN and P-ENC-RX means is the model's choice (DESIGN CHOICE, notes/assumptions/9); this says that FRAME.RD and RECV
agree with it. -/
def Obligations.RxCommandsRunTheDecodedFormat : Prop :=
  ∀ (s : State) (f : RxFlight) (q : RxStream) (p rest : List Byte), s.phase = .completion → s.rxFlight = some f →
    s.rxs = some q → decode s.cfg.nfrag (.frame .rx) q.unread = .ok (.frame .rx p, rest) →
    (f.cmd = .frameRd → exec .frameRd s = exec (.frame .rx p) s) ∧
    (f.cmd = .recv → exec .recv s = exec (.frame .rx p) s) ∧
    (∀ opc body i, f.cmd = .recv → p = opc :: body →
      decode s.cfg.nfrag (.payload .rx (classify s.cfg .rx opc)) p = .ok (i, []) → exec .recv s = exec i s)

/-- 47_session_system R300: the issue step, case by case. -/
def Obligations.IssueFollowsItsCases : Prop :=
  ∀ (s : State) (code : Byte), s.phase = .issue →
    let isSys := code = 0x02#8 ∨ code = 0x03#8 ∨ code = 0x04#8 ∨ code = 0x05#8
    let isTx := code = 0x10#8 ∨ code = 0x11#8 ∨ code = 0x12#8
    let isRx := code = 0x20#8 ∨ code = 0x21#8 ∨ code = 0x22#8
    let busy := (isSys ∧ (s.txBusy = true ∨ s.rxBusy = true)) ∨ (isTx ∧ s.txBusy = true) ∨ (isRx ∧ s.rxBusy = true)
    let needsSession := code = 0x03#8 ∨ code = 0x04#8 ∨ isTx ∨ isRx
    (code ∉ commandCodes → issueCommand code s = .next { s with issueStatus := .illegalCommand }) ∧
    (code = 0x00#8 → issueCommand code s = .next { s with issueStatus := .ok }) ∧
    (code = 0x01#8 → issueCommand code s = exec .reset s) ∧
    (busy → issueCommand code s = .next { s with issueStatus := .busy }) ∧
    (code = 0x02#8 → ¬ busy → issueCommand code s = .next s.openSession) ∧
    (code = 0x05#8 → ¬ busy → issueCommand code s = .next s.closeSession) ∧
    (needsSession → ¬ busy → s.sess = .none → issueCommand code s = .next { s with issueStatus := .noSession }) ∧
    (needsSession → ¬ busy → s.sess = .dead → issueCommand code s = .next { s with issueStatus := .sessionDead }) ∧
    (isTx → ¬ busy → s.sess = .live → 65536 < s.txbLen.toNat →
      issueCommand code s = .next { s with issueStatus := .illegalOperand }) ∧
    (code = 0x03#8 → ¬ busy → s.sess = .live → s.cipherValid = true →
      issueCommand code s = .next { s with issueStatus := .illegalState }) ∧
    (code = 0x03#8 → ¬ busy → s.sess = .live → s.cipherValid = false →
      ∃ t, issueCommand code s = .next t ∧ t.issueStatus = .ok ∧ t.cipherValid = true ∧ exec .sessKey s = .next t) ∧
    (code = 0x04#8 → ¬ busy → s.sess = .live →
      ∃ t, issueCommand code s = .next t ∧ t.issueStatus = .ok ∧ t.sktValid = true ∧ exec .sktGen s = .next t) ∧
    (isTx → ¬ busy → s.sess = .live → s.txbLen.toNat ≤ 65536 →
      ∃ c : TxCommand, commandCode c.instr = code ∧ issueCommand code s = .next
        { s with
          issueStatus := .ok, txFlight := some { cmd := c, opc := s.txOpc, len := s.txbLen, ord := s.argOrdTx } }) ∧
    (isRx → ¬ busy → s.sess = .live →
      ∃ c : RxCommand, commandCode c.instr = code ∧ issueCommand code s = .next
        { s with
          issueStatus := .ok, rxFlight := some { cmd := c, ord := s.argOrdRx, off := s.rxOff, blen := s.rxBlen } })

/-! ### System commands -/

/-- 47_session_system R308. -/
def Obligations.NopWritesIssueStatusOnly : Prop :=
  ∀ s : State, exec .nop s = .next { s with issueStatus := .ok }

/-- 47_session_system R302, 10_state R56. That the old TXS goes to the history is the model's (notes/assumptions/12). -/
def Obligations.SessOpenStartsAFreshSession : Prop :=
  ∀ s : State, s.txFlight = none → s.rxFlight = none →
    exec .sessOpen s = .next
      { s with
        sess := .live, ord := 0#8, lcg := 1#32, cipherValid := false, sktValid := false, keyLen := 0#8, seed := 0#8
        txStatus := .ok, txClass := .none, txA := 0#16, txB := 0#8
        rxStatus := .ok, rxbLen := 0#16, rxOpc := 0#8, rxClass := .none, rxOrd := 0#8, rxA := 0#16, rxB := 0#8
        rxOff := 0#16, rxBlen := 0#16
        rxs := some { unread := [], pos := 0, closed := false }, txs := some []
        txsHistory := s.txsHistory ++ s.txs.toList, issueStatus := .ok }

/-- 47_session_system R303: the seed, both salt tables and the raw key, once per session. -/
def Obligations.SessKeyLoadsSeedSaltAndKey : Prop :=
  ∀ s : State, s.txFlight = none → s.rxFlight = none → s.sess = .live →
    (s.cipherValid = true → exec .sessKey s = .next { s with issueStatus := .illegalState }) ∧
    (s.cipherValid = false →
      let t : State :=
        { s with
          saltTx := s.saltTx.store 0 (saltBuild s.cfg s.argSeed), saltRx := s.saltRx.store 0 (saltBuild s.cfg s.argSeed)
          keyRaw := s.keyRaw.store 0 (s.memRead .pb 0 s.pbLen.toNat), seed := s.argSeed, keyLen := s.pbLen
          cipherValid := true, issueStatus := .ok }
      exec .sessKey s = .next t ∧
      (∀ i < 256, t.byteAt .saltTx i = saltEntry s.cfg s.argSeed i ∧ t.byteAt .saltRx i = saltEntry s.cfg s.argSeed i) ∧
      (∀ i < s.pbLen.toNat, t.byteAt .keyRaw i = s.byteAt .pb i) ∧
      ∀ i, s.pbLen.toNat ≤ i → t.byteAt .keyRaw i = s.byteAt .keyRaw i)

/-- 44_special_key_table R225. -/
def Obligations.SktGenStoresTheTable : Prop :=
  ∀ s : State, s.txFlight = none → s.rxFlight = none → s.sess = .live →
    let t : State :=
      { s with
        skt := s.skt.store 0 (sktGen (s.memRead .pb 0 s.pbLen.toNat)), sktValid := true, issueStatus := .ok }
    exec .sktGen s = .next t ∧ t.memRead .skt 0 1024 = sktGen (s.memRead .pb 0 s.pbLen.toNat)

/-- 47_session_system R306, and that on NONE, in the states a run reaches, it changes ISSUE_STATUS only. -/
def Obligations.SessCloseEndsTheSession : Prop :=
  ∀ s : State, s.txFlight = none → s.rxFlight = none →
    exec .sessClose s = .next
      { s with
        sess := .none, ord := 0#8, lcg := 1#32, cipherValid := false, sktValid := false, keyLen := 0#8, seed := 0#8
        txStatus := .ok, txClass := .none, txA := 0#16, txB := 0#8
        rxStatus := .ok, rxbLen := 0#16, rxOpc := 0#8, rxClass := .none, rxOrd := 0#8, rxA := 0#16, rxB := 0#8
        rxOff := 0#16, rxBlen := 0#16, rxs := none, txs := none
        txsHistory := s.txsHistory ++ s.txs.toList, issueStatus := .ok } ∧
    (s.Inv → s.sess = .none → exec .sessClose s = .next { s with issueStatus := .ok })

/-! ### TX commands -/

/-- 40_frame_codec R135, R136. -/
def Obligations.FrameWrAppendsOneFrame : Prop :=
  ∀ (s : State) (f : TxFlight), s.phase = .completion → s.txFlight = some f →
    let n := f.len.toNat
    (n ≤ 65535 → exec .frameWr s = .next
      { s with
        txs := s.txs.map (· ++
          magic :: BitVec.ofNat 8 (n / 256) :: BitVec.ofNat 8 (n % 256) :: s.memRead .txb 0 n)
        txStatus := .ok, txFlight := none }) ∧
    (65535 < n → exec .frameWr s = .next { s with txStatus := .payloadTooLarge, txFlight := none, sess := .dead })

/-- 46_send_recv R274: SEND of class None sends opcode and body in clear and changes nothing but TX_CLASS and the
completion. -/
def Obligations.SendOfClassNoneIsVerbatim : Prop :=
  ∀ (s : State) (f : TxFlight), s.phase = .completion → s.txFlight = some f → classify s.cfg .tx f.opc = .none →
    let n := f.len.toNat
    (n ≤ 65534 → exec .send s = .next
      { s with
        txClass := .none
        txs := s.txs.map (· ++
          magic :: BitVec.ofNat 8 ((1 + n) / 256) :: BitVec.ofNat 8 ((1 + n) % 256) :: f.opc :: s.memRead .txb 0 n)
        txStatus := .ok, txFlight := none }) ∧
    (65534 < n → exec .send s = .next
      { s with txClass := .none, txStatus := .payloadTooLarge, txFlight := none, sess := .dead })

/-- 30_encoding R103, 46_send_recv R270, R272: SEND of class Normal. -/
def Obligations.SendOfClassNormal : Prop :=
  ∀ (s : State) (f : TxFlight), s.phase = .completion → s.txFlight = some f → classify s.cfg .tx f.opc = .normal →
    s.cipherValid = true → s.keyLen ≠ 0#8 → 5 + f.len.toNat ≤ 65535 →
    ∀ key : Key, key.bytes = s.memRead .keyRaw 0 s.keyLen.toNat →
    let n := f.len.toNat
    let st := s.lcg * 0x343FD#32 + 0x269EC3#32
    let a : Half := BitVec.ofNat 16 ((st.toNat / 65536) % 32768 % 65277 + 256)
    let c := crypt (s.memRead .txb 0 n) s.ord key (fun si => s.byteAt .saltTx si.toNat)
    let t := trailerPack s.cfg.trailerOrder a 100#8
    exec .send s = .next
      { s with
        txClass := .normal, txb := s.txb.store 0 c, lcg := st, txA := a, txB := 100#8, ord := s.ord + 1#8
        txs := s.txs.map (· ++
          magic :: BitVec.ofNat 8 ((5 + n) / 256) :: BitVec.ofNat 8 ((5 + n) % 256) ::
            f.opc :: s.ord :: (c ++ [t.1, t.2.1, t.2.2]))
        txStatus := .ok, txFlight := none }

/-- 30_encoding R104, R105, 46_send_recv R270, R272: SEND of class Md5. -/
def Obligations.SendOfClassMd5 : Prop :=
  ∀ (s : State) (f : TxFlight), s.phase = .completion → s.txFlight = some f → classify s.cfg .tx f.opc = .md5 →
    s.cipherValid = true → s.sktValid = true → 5 + s.cfg.fragOffsets.length + f.len.toNat ≤ 65535 →
    let n := f.len.toNat
    let st := s.lcg * 0x343FD#32 + 0x269EC3#32
    let a : Half := BitVec.ofNat 16 ((st.toNat / 65536) % 32768 % 65277 + 256)
    ∀ key : Key, key.bytes = key9 (s.byteAt .skt) a 100#8 →
    let c := crypt (s.memRead .txb 0 n) s.ord key (fun si => s.byteAt .saltTx si.toNat)
    let frag := s.cfg.fragOffsets.map fun o => (md5 (f.opc :: s.ord :: c)).getD o.val 0#8
    let t := trailerPack s.cfg.trailerOrder a 100#8
    let len := 5 + s.cfg.fragOffsets.length + n
    exec .send s = .next
      { s with
        txClass := .md5, txb := s.txb.store 0 c, lcg := st, txA := a, txB := 100#8, ord := s.ord + 1#8
        txs := s.txs.map (· ++
          magic :: BitVec.ofNat 8 (len / 256) :: BitVec.ofNat 8 (len % 256) ::
            f.opc :: s.ord :: (c ++ frag ++ [t.1, t.2.1, t.2.2]))
        txStatus := .ok, txFlight := none }

/-- 46_send_recv R271, R273: SEND of an encrypted class without its key, and above the size limit; the key is tested
first (60_exceptions R335). -/
def Obligations.SendErrorsAdvanceNothing : Prop :=
  ∀ (s : State) (f : TxFlight) (cls : Cls), s.phase = .completion → s.txFlight = some f →
    classify s.cfg .tx f.opc = cls → cls ≠ .none →
    let ready := s.cipherValid = true ∧ (cls = .normal → s.keyLen ≠ 0#8) ∧ (cls = .md5 → s.sktValid = true)
    let extra := if cls = .md5 then s.cfg.fragOffsets.length else 0
    (¬ ready → exec .send s = .next { s with txClass := cls, txStatus := .noKeyMaterial, txFlight := none }) ∧
    (ready → 65535 < 5 + extra + f.len.toNat →
      exec .send s = .next
        { s with txClass := cls, txStatus := .payloadTooLarge, txFlight := none, sess := .dead })

/-- 42_crypt R175. -/
def Obligations.CryptTxTransformsTheBuffer : Prop :=
  ∀ (s : State) (f : TxFlight), s.phase = .completion → s.txFlight = some f →
    (s.cipherValid = false ∨ s.keyLen = 0#8 →
      exec .cryptTx s = .next { s with txStatus := .noKeyMaterial, txFlight := none }) ∧
    (∀ key : Key, key.bytes = s.memRead .keyRaw 0 s.keyLen.toNat →
      s.cipherValid = true → s.keyLen ≠ 0#8 → exec .cryptTx s = .next
      { s with
        txb := s.txb.store 0
          (crypt (s.memRead .txb 0 f.len.toNat) f.ord key (fun si => s.byteAt .saltTx si.toNat))
        txStatus := .ok, txFlight := none })

/-! ### RX commands -/

/-- 40_frame_codec R130, R131: FRAME.RD with a whole frame at the front of RXS. -/
def Obligations.FrameRdStoresThePayload : Prop :=
  ∀ (s : State) (f : RxFlight) (q : RxStream) (hi lo : Byte) (p rest : List Byte), s.phase = .completion →
    s.rxFlight = some f → s.rxs = some q → q.unread = 0xAA#8 :: hi :: lo :: (p ++ rest) →
    p.length = hi.toNat * 256 + lo.toNat →
    exec .frameRd s = .next
      { s with
        rxs := some { q with unread := rest, pos := q.pos + (3 + p.length) }
        rxb := s.rxb.store 0 p, rxbLen := BitVec.ofNat 16 p.length, rxOff := 0#16, rxBlen := BitVec.ofNat 16 p.length
        rxStatus := .ok, rxFlight := none }

/-- 40_frame_codec R132: FRAME.RD and RECV are held while RXS is open and the frame is not whole. R132 says that a held
command has no step; that its completion answers the same state, the turn passing, is the model's choice (DESIGN CHOICE,
notes/assumptions/2). -/
def Obligations.ReadsHoldWithoutAWholeFrame : Prop :=
  ∀ (s : State) (f : RxFlight) (q : RxStream), s.phase = .completion → s.rxFlight = some f → s.rxs = some q →
    q.closed = false →
    (q.unread.length < 3 ∨
      ∃ hi lo rest, q.unread = 0xAA#8 :: hi :: lo :: rest ∧ rest.length < hi.toNat * 256 + lo.toNat) →
    exec .frameRd s = .next s ∧ exec .recv s = .next s

/-- 40_frame_codec R133, R134: bad magic, truncated frame, closed stream, for FRAME.RD and RECV. -/
def Obligations.ReadErrorsKillTheSession : Prop :=
  ∀ (s : State) (f : RxFlight) (q : RxStream), s.phase = .completion → s.rxFlight = some f → s.rxs = some q →
    let dies := fun (e : Status) (left : List Byte) (taken : Nat) =>
      (.next
        { s with
          rxs := some { q with unread := left, pos := q.pos + taken }
          rxStatus := e, rxFlight := none, sess := .dead } : Host.Outcome State Fault Refusal)
    (∀ b hi lo rest, q.unread = b :: hi :: lo :: rest → b ≠ 0xAA#8 →
      exec .frameRd s = dies .invalidFraming rest 3 ∧ exec .recv s = dies .invalidFraming rest 3) ∧
    (q.closed = true → q.unread = [] →
      exec .frameRd s = dies .transportClosed [] 0 ∧ exec .recv s = dies .transportClosed [] 0) ∧
    (q.closed = true → q.unread ≠ [] →
      (q.unread.length < 3 ∨
        ∃ hi lo rest, q.unread = 0xAA#8 :: hi :: lo :: rest ∧ rest.length < hi.toNat * 256 + lo.toNat) →
      exec .frameRd s = dies .truncatedFrame [] q.unread.length ∧
      exec .recv s = dies .truncatedFrame [] q.unread.length)

/-- 46_send_recv R282: RECV of class None. -/
def Obligations.RecvOfClassNoneKeepsTheBody : Prop :=
  ∀ (s : State) (f : RxFlight) (q : RxStream) (hi lo opc : Byte) (body rest : List Byte), s.phase = .completion →
    s.rxFlight = some f → s.rxs = some q → q.unread = 0xAA#8 :: hi :: lo :: opc :: (body ++ rest) →
    1 + body.length = hi.toNat * 256 + lo.toNat → classify s.cfg .rx opc = .none →
    exec .recv s = .next
      { s with
        rxs := some { q with unread := rest, pos := q.pos + (4 + body.length) }
        rxb := s.rxb.store 0 (opc :: body), rxbLen := BitVec.ofNat 16 (1 + body.length)
        rxOpc := opc, rxClass := .none, rxOff := 1#16, rxBlen := BitVec.ofNat 16 body.length
        rxStatus := .ok, rxFlight := none }

/-- 46_send_recv R283, 30_encoding R106: RECV of class Normal or Md5, with the key of its class loaded. -/
def Obligations.RecvOfEncryptedClassDecrypts : Prop :=
  ∀ (s : State) (f : RxFlight) (q : RxStream) (hi lo opc ord t0 t1 t2 : Byte) (c rest : List Byte) (cls : Cls),
    s.phase = .completion → s.rxFlight = some f → s.rxs = some q →
    q.unread = 0xAA#8 :: hi :: lo :: opc :: ord :: (c ++ t0 :: t1 :: t2 :: rest) →
    5 + c.length = hi.toNat * 256 + lo.toNat → classify s.cfg .rx opc = cls → cls ≠ .none →
    s.cipherValid = true → (cls = .normal → s.keyLen ≠ 0#8) → (cls = .md5 → s.sktValid = true) →
    let ab := trailerUnpack s.cfg.trailerOrder t0 t1 t2
    ∀ key : Key,
      key.bytes = (if cls = .normal then s.memRead .keyRaw 0 s.keyLen.toNat else key9 (s.byteAt .skt) ab.1 ab.2) →
    let plain := crypt c ord key (fun si => s.byteAt .saltRx si.toNat)
    exec .recv s = .next
      { s with
        rxs := some { q with unread := rest, pos := q.pos + (8 + c.length) }
        rxb := (s.rxb.store 0 (opc :: ord :: (c ++ [t0, t1, t2]))).store 2 plain
        rxbLen := BitVec.ofNat 16 (5 + c.length), rxOpc := opc, rxClass := cls
        rxOrd := ord, rxA := ab.1, rxB := ab.2, rxOff := 2#16, rxBlen := BitVec.ofNat 16 c.length
        rxStatus := .ok, rxFlight := none }

/-- 46_send_recv R280, R281, R284: RECV of an empty payload, of an encrypted class below 5 bytes, and without the key of
its class; in this order (60_exceptions R335). -/
def Obligations.RecvErrorsLeaveThePayload : Prop :=
  ∀ (s : State) (f : RxFlight) (q : RxStream) (hi lo : Byte) (p rest : List Byte), s.phase = .completion →
    s.rxFlight = some f → s.rxs = some q → q.unread = 0xAA#8 :: hi :: lo :: (p ++ rest) →
    p.length = hi.toNat * 256 + lo.toNat →
    let stored : State :=
      { s with
        rxs := some { q with unread := rest, pos := q.pos + (3 + p.length) }
        rxb := s.rxb.store 0 p, rxbLen := BitVec.ofNat 16 p.length, rxOff := 0#16, rxBlen := BitVec.ofNat 16 p.length
        rxFlight := none }
    (p = [] → exec .recv s = .next { stored with rxStatus := .emptyPayload, sess := .dead }) ∧
    (∀ opc body, p = opc :: body → classify s.cfg .rx opc ≠ .none →
      let cls := classify s.cfg .rx opc
      let ready := s.cipherValid = true ∧ (cls = .normal → s.keyLen ≠ 0#8) ∧ (cls = .md5 → s.sktValid = true)
      (p.length < 5 → exec .recv s = .next
        { stored with rxOpc := opc, rxClass := cls, rxStatus := .shortEncryptedPayload, sess := .dead }) ∧
      (5 ≤ p.length → ¬ ready → exec .recv s = .next
        { stored with rxOpc := opc, rxClass := cls, rxStatus := .noKeyMaterial }))

/-- 42_crypt R176. -/
def Obligations.CryptRxTransformsTheWindow : Prop :=
  ∀ (s : State) (f : RxFlight), s.phase = .completion → s.rxFlight = some f →
    (s.cipherValid = false ∨ s.keyLen = 0#8 →
      exec .cryptRx s = .next { s with rxStatus := .noKeyMaterial, rxFlight := none }) ∧
    (∀ key : Key, key.bytes = s.memRead .keyRaw 0 s.keyLen.toNat →
      s.cipherValid = true → s.keyLen ≠ 0#8 → exec .cryptRx s = .next
      { s with
        rxb := s.rxb.store f.off.toNat (crypt (s.memRead .rxb f.off.toNat f.blen.toNat) f.ord key
          (fun si => s.byteAt .saltRx si.toNat))
        rxStatus := .ok, rxFlight := none })

/-! ### Wire formats as instructions (the model's choice, notes/assumptions/9) -/

/-- 30_encoding R90, R94, R103, R104: an outbound wire format that is well formed is appended to TXS in one frame, with
what SEND or FRAME.WR writes for it. That a wire format is an instruction is the model's choice
(notes/assumptions/9). -/
def Obligations.OutboundWireFormatsAppendTheirFrame : Prop :=
  ∀ (s : State) (opc ord t0 t1 t2 : Byte) (p body c frag : List Byte),
    let ab := trailerUnpack s.cfg.trailerOrder t0 t1 t2
    let framed := fun (len : Nat) (bs : List Byte) => s.txs.map (· ++
      magic :: BitVec.ofNat 8 (len / 256) :: BitVec.ofNat 8 (len % 256) :: bs)
    (p.length ≤ 65535 → exec (.frame .tx p) s = .next
      { s with txs := framed p.length p, txStatus := .ok, txFlight := none }) ∧
    (body.length ≤ 65534 → exec (.pPlain .tx opc body) s = .next
      { s with
        txClass := .none, txs := framed (1 + body.length) (opc :: body), txStatus := .ok, txFlight := none }) ∧
    (c.length ≤ 65530 → exec (.pNormTx opc ord c t0 t1 t2) s = .next
      { s with
        txClass := .normal, txb := s.txb.store 0 c, lcg := lcgNext s.lcg, txA := ab.1, txB := ab.2, ord := ord + 1#8
        txs := framed (5 + c.length) (opc :: ord :: (c ++ [t0, t1, t2])), txStatus := .ok, txFlight := none }) ∧
    (frag.length = s.cfg.nfrag → 5 + frag.length + c.length ≤ 65535 → exec (.pMd5Tx opc ord c frag t0 t1 t2) s = .next
      { s with
        txClass := .md5, txb := s.txb.store 0 c, lcg := lcgNext s.lcg, txA := ab.1, txB := ab.2, ord := ord + 1#8
        txs := framed (5 + frag.length + c.length) (opc :: ord :: (c ++ frag ++ [t0, t1, t2]))
        txStatus := .ok, txFlight := none })

/-- 30_encoding R90, R94, R106: an inbound wire format at the front of RXS is taken, with what FRAME.RD or RECV writes for
it. That a wire format is an instruction is the model's choice (notes/assumptions/9). -/
def Obligations.InboundWireFormatsAreTaken : Prop :=
  ∀ (s : State) (q : RxStream) (f : RxFlight) (opc ord t0 t1 t2 : Byte) (p body c rest : List Byte) (cls : Cls),
    s.rxs = some q → s.rxFlight = some f →
    let ab := trailerUnpack s.cfg.trailerOrder t0 t1 t2
    let taken := fun (n : Nat) => some { q with unread := q.unread.drop (3 + n), pos := q.pos + (3 + n) }
    (f.cmd = .frameRd → p.length ≤ 65535 → q.unread = frameBytes p ++ rest → exec (.frame .rx p) s = .next
      { s with
        rxs := taken p.length, rxb := s.rxb.store 0 p, rxbLen := BitVec.ofNat 16 p.length, rxOff := 0#16
        rxBlen := BitVec.ofNat 16 p.length, rxStatus := .ok, rxFlight := none }) ∧
    (body.length ≤ 65534 → q.unread = frameBytes (opc :: body) ++ rest → classify s.cfg .rx opc = .none →
      exec (.pPlain .rx opc body) s = .next
      { s with
        rxs := taken (1 + body.length), rxb := s.rxb.store 0 (opc :: body)
        rxbLen := BitVec.ofNat 16 (1 + body.length), rxOpc := opc, rxClass := .none
        rxOff := 1#16, rxBlen := BitVec.ofNat 16 body.length, rxStatus := .ok, rxFlight := none }) ∧
    (∀ key : Key,
      key.bytes = (if cls = .normal then s.memRead .keyRaw 0 s.keyLen.toNat else key9 (s.byteAt .skt) ab.1 ab.2) →
      let plain := crypt c ord key (fun si => s.byteAt .saltRx si.toNat)
      c.length ≤ 65530 → q.unread = frameBytes (opc :: ord :: (c ++ [t0, t1, t2])) ++ rest →
      classify s.cfg .rx opc = cls → cls ≠ .none → s.cipherValid = true → (cls = .normal → s.keyLen ≠ 0#8) →
      (cls = .md5 → s.sktValid = true) → exec (.pEncRx opc ord c t0 t1 t2) s = .next
      { s with
        rxs := taken (5 + c.length)
        rxb := (s.rxb.store 0 (opc :: ord :: (c ++ [t0, t1, t2]))).store 2 plain
        rxbLen := BitVec.ofNat 16 (5 + c.length), rxOpc := opc, rxClass := cls
        rxOrd := ord, rxA := ab.1, rxB := ab.2, rxOff := 2#16, rxBlen := BitVec.ofNat 16 c.length
        rxStatus := .ok, rxFlight := none })

/-! ### Memory and host access -/

/-- 20_memory R66: what the host writes to PB, or to TXB while TX is idle, it reads back. -/
def Obligations.HostWriteThenReadReturnsTheBytes : Prop :=
  ∀ (s : State) (sp : Space) (i : Nat) (bs : List Byte) (rest : List Move),
    s.moves = .memWrite sp i bs :: .memRead sp i bs.length :: rest → i + bs.length ≤ sp.size →
    (sp = .pb ∨ (sp = .txb ∧ s.txFlight = none)) →
    ∃ t u, step s = .next t ∧ step t = .next u ∧ u.hostPort = .bytes bs ∧
      ∀ sp' j, (sp' = sp → j < i ∨ i + bs.length ≤ j) → (u.ram sp').byte? j = (s.ram sp').byte? j

/-- 10_state R40, R47, R49, 20_memory R66: a step in which the host reads a location that holds a value returns it: the
key memories while their valid bit is 1, KEY_RAW below KEY_LEN, PB, TXB and RXB while their direction is idle, RXB below
RXB_LEN, and the class of each opcode in the two ROMs. A read changes nothing but the host's port (notes/assumptions/14).
Writes of read-only spaces are ignored. R67, 93_implementation_defined U4: an access of a busy buffer is refused, an
index that does not exist faults; that these stop the machine, and their names, are notes/assumptions/15. -/
def Obligations.HostAccessRules : Prop :=
  ∀ (s : State) (sp : Space) (i n : Nat) (bs : List Byte) (rest : List Move),
    let reads := fun (x : HostPort) => step s = .next { s.advance rest with hostPort := x }
    (s.moves = .memRead sp i bs.length :: rest → i + bs.length ≤ sp.size →
      (∀ k (h : k < bs.length), (s.ram sp).byte? (i + k) = some bs[k]) →
      (sp = .saltTx ∨ sp = .saltRx → s.cipherValid = true) →
      (sp = .keyRaw → s.cipherValid = true ∧ i + bs.length ≤ s.keyLen.toNat) → (sp = .skt → s.sktValid = true) →
      (sp = .txb → s.txFlight = none) → (sp = .rxb → s.rxFlight = none ∧ i + bs.length ≤ s.rxbLen.toNat) →
      reads (.bytes bs)) ∧
    (∀ opc : Byte, s.moves = .memRead .encTx opc.toNat 1 :: rest → reads (.bytes [(classify s.cfg .tx opc).code])) ∧
    (∀ opc : Byte, s.moves = .memRead .encRx opc.toNat 1 :: rest → reads (.bytes [(classify s.cfg .rx opc).code])) ∧
    (s.moves = .memWrite sp i bs :: rest → i + bs.length ≤ sp.size → sp ≠ .pb → sp ≠ .txb →
      (sp = .rxb → s.rxFlight = none) → step s = .next (s.advance rest)) ∧
    (s.moves = .memWrite .txb i bs :: rest → i + bs.length ≤ 65536 → s.txFlight ≠ none →
      step s = .refused (.bufferBusy .txb)) ∧
    (s.moves = .memRead .txb i n :: rest → i + n ≤ 65536 → s.txFlight ≠ none → step s = .refused (.bufferBusy .txb)) ∧
    (s.moves = .memRead .rxb i n :: rest → i + n ≤ 65535 → s.rxFlight ≠ none → step s = .refused (.bufferBusy .rxb)) ∧
    (s.moves = .memWrite sp i bs :: rest → sp.size < i + bs.length → step s = .fault (.noSuchIndex sp i)) ∧
    (s.moves = .memRead sp i n :: rest → sp.size < i + n → step s = .fault (.noSuchIndex sp i))

/-- 20_memory R61: the TX commands write no memory but TXB, below the length; FRAME.WR and SEND of class None write
none. -/
def Obligations.TxCommandsWriteOnlyTxb : Prop :=
  ∀ (s t : State) (f : TxFlight), s.phase = .completion → s.txFlight = some f →
    (exec .send s = .next t ∨ exec .cryptTx s = .next t →
      ∀ sp i, (sp = .txb → f.len.toNat ≤ i) → t.byteAt sp i = s.byteAt sp i) ∧
    (exec .frameWr s = .next t ∨ (exec .send s = .next t ∧ classify s.cfg .tx f.opc = .none) →
      ∀ sp i, t.byteAt sp i = s.byteAt sp i)

/-- 20_memory R61: the RX commands write no memory but RXB: FRAME.RD and RECV below the payload's length, CRYPT.RX in the
latched window; a held or failed read writes none. -/
def Obligations.RxCommandsWriteOnlyRxb : Prop :=
  ∀ (s t : State) (f : RxFlight), s.phase = .completion → s.rxFlight = some f →
    (exec .frameRd s = .next t ∨ exec .recv s = .next t →
      ∀ sp i, (sp = .rxb → t.rxbLen.toNat ≤ i) → t.byteAt sp i = s.byteAt sp i) ∧
    (∀ q, s.rxs = some q → (∀ p, q.frameRead ≠ .payload p) → exec .frameRd s = .next t ∨ exec .recv s = .next t →
      ∀ sp i, t.byteAt sp i = s.byteAt sp i) ∧
    (exec .cryptRx s = .next t →
      ∀ sp i, (sp = .rxb → i < f.off.toNat ∨ f.off.toNat + f.blen.toNat ≤ i) → t.byteAt sp i = s.byteAt sp i)

/-! ### Datapath functions -/

/-- 42_crypt R172. -/
def Obligations.CryptIsItsOwnInverse : Prop :=
  ∀ (buf : List Byte) (key : Key) (ord : Byte) (salt : Byte → Byte),
    crypt (crypt buf ord key salt) ord key salt = buf ∧ (crypt buf ord key salt).length = buf.length

/-- 42_crypt R171; the keystream byte is written out from the bytes of the key. -/
def Obligations.CryptXorsAKeystream : Prop :=
  ∀ (buf : List Byte) (key : Key) (ord : Byte) (salt : Byte → Byte) (i : Nat),
    let k := key.bytes.length
    let si : Byte := BitVec.ofNat 8 (i / k % 256)
    (crypt buf ord key salt)[i]? =
      buf[i]?.map (· ^^^ (key.bytes.getD (i % k) 0#8 ^^^ salt si ^^^ (if si ≠ ord then salt ord else 0#8)))

/-- 41_salt_table R150, R151, R154: 256 entries; a recognised seed gives the formula modulo 256, an unknown one 0. -/
def Obligations.SaltBuildWrapsAndZeroesUnknownSeeds : Prop :=
  ∀ (c : Config) (seed : Byte), (saltBuild c seed).length = 256 ∧
    ∀ (i : Fin 256),
      (∀ h : seed.toNat < 10,
        (((saltBuild c seed)[i.val]?).map fun b => (b.toNat : Int)) = some ((c.salt[seed.toNat]'h)[i.val] % 256)) ∧
      (10 ≤ seed.toNat → (saltBuild c seed)[i.val]? = some 0#8)

/-- 44_special_key_table R220, R221: 1024 hexadecimal digits; block 0 is the digest of the digest of the seed string,
block `j` the digest of everything before it. -/
def Obligations.SktGenIsAlways1024HexDigits : Prop :=
  ∀ s : List Byte, (sktGen s).length = 1024 ∧ (∀ b ∈ sktGen s, Byte.isHexDigit b) ∧
    (sktGen s).take 32 = hex (md5 (hex (md5 s))) ∧
    ∀ j, 1 ≤ j → j ≤ 31 → ((sktGen s).drop (32 * j)).take 32 = hex (md5 ((sktGen s).take (32 * j)))

/-- 43_md5_hex R192: the padding. -/
def Obligations.Md5PaddingFillsBlocks : Prop :=
  ∀ s : List Byte, ∃ z : Nat, z ≤ 63 ∧ (s.length + 1 + z) % 64 = 56 ∧
    md5Pad s = s ++ [0x80#8] ++ List.replicate z 0#8 ++
      (List.range 8).map (fun k => BitVec.ofNat 8 (8 * s.length / 256 ^ k)) ∧ (md5Pad s).length % 64 = 0

/-- 45_key_derivation R257, and the default layout of R255. -/
def Obligations.TrailerUnpackInvertsPack : Prop :=
  (∀ (o : TrailerOrder) (a : Half) (b : Byte),
    trailerUnpack o (trailerPack o a b).1 (trailerPack o a b).2.1 (trailerPack o a b).2.2 = (a, b)) ∧
  (∀ (o : TrailerOrder) (t0 t1 t2 : Byte),
    trailerPack o (trailerUnpack o t0 t1 t2).1 (trailerUnpack o t0 t1 t2).2 = (t0, t1, t2)) ∧
  (∀ (a : Half) (b : Byte), trailerPack .loBHi a b =
    (a.extractLsb' 0 8 ^^^ 0x70#8, b ^^^ 0x23#8, a.extractLsb' 8 8 ^^^ 0x74#8))

/-- 45_key_derivation R241: the outputs of the generator, now and in every later step, do not depend on bit 31. -/
def Obligations.GeneratorIgnoresItsTopBit : Prop :=
  ∀ (x y : Word) (k : Nat), x.toNat % 2 ^ 31 = y.toNat % 2 ^ 31 →
    (lcgNext^[k] x).toNat % 2 ^ 31 = (lcgNext^[k] y).toNat % 2 ^ 31 ∧
    specialKeySeed (lcgNext^[k] x) = specialKeySeed (lcgNext^[k] y)

/-- 45_key_derivation R242: the modulus never acts, and the outbound `a` is 256 to 33023. -/
def Obligations.OutboundAIsSeedPlusOffset : Prop :=
  ∀ st : Word, specialKeySeed st ≤ 32767 ∧ (outboundA st).toNat = specialKeySeed st + 256 ∧
    256 ≤ (outboundA st).toNat ∧ (outboundA st).toNat ≤ 33023

/-- 45_key_derivation R245, R246: nine bytes at the stated indices; with the outbound `b` = 100 in closed form. -/
def Obligations.SampledKeyPositions : Prop :=
  ∀ (t : Nat → Byte) (a : Half) (b : Byte), (key9 t a b).length = 9 ∧
    ∀ i < 9, (key9 t a b)[i]? = some (t ((i * (9 * i + b.toNat * b.toNat) + a.toNat) % 1024)) ∧
      (b = 100#8 → (key9 t a b)[i]? = some (t ((9 * i * i + 10000 * i + a.toNat) % 1024)))

/-! ### The whole machine -/

/-- 40_frame_codec R138: what FRAME.WR appends, fed to RXS, FRAME.RD reads back, for every length 0 to 65535. -/
def Obligations.FrameWrThenFrameRdRoundTrips : Prop :=
  ∀ (s r : State) (f : TxFlight) (g : RxFlight) (old : List Byte), s.phase = .completion → s.txFlight = some f →
    s.txs = some old → f.len.toNat ≤ 65535 → r.phase = .completion → r.rxFlight = some g →
    ∃ (t : State) (bytes : List Byte), exec .frameWr s = .next t ∧ t.txs = some (old ++ bytes) ∧
      (r.rxs = some { unread := bytes, pos := 0, closed := false } →
        ∃ u, exec .frameRd r = .next u ∧ u.rxStatus = .ok ∧ u.rxbLen.toNat = f.len.toNat ∧
          u.memRead .rxb 0 f.len.toNat = s.memRead .txb 0 f.len.toNat)

/-- 46_send_recv R287: the frame of an encrypted SEND, fed to a CFE with the same salt table, the same key of that class and
the same trailer order, whose ENC_RX gives the opcode the same class, comes back as the original body; for class Md5
followed by NFRAG more bytes. -/
def Obligations.SendThenRecvRestoresTheBody : Prop :=
  ∀ (s r : State) (f : TxFlight) (g : RxFlight) (old : List Byte) (cls : Cls), s.phase = .completion →
    s.txFlight = some f → s.txs = some old → r.phase = .completion → r.rxFlight = some g → cls ≠ .none →
    classify s.cfg .tx f.opc = cls → classify r.cfg .rx f.opc = cls → s.cipherValid = true → r.cipherValid = true →
    (cls = .normal → s.keyLen ≠ 0#8 ∧ r.keyLen = s.keyLen ∧
      ∀ i < s.keyLen.toNat, r.byteAt .keyRaw i = s.byteAt .keyRaw i) →
    (cls = .md5 → s.sktValid = true ∧ r.sktValid = true ∧ ∀ i < 1024, r.byteAt .skt i = s.byteAt .skt i) →
    let extra := if cls = .md5 then s.cfg.nfrag else 0
    5 + extra + f.len.toNat ≤ 65535 → (∀ si, r.salt .rx si = s.salt .tx si) → r.cfg.trailerOrder = s.cfg.trailerOrder →
    ∃ (t : State) (bytes : List Byte), exec .send s = .next t ∧ t.txs = some (old ++ bytes) ∧
      (r.rxs = some { unread := bytes, pos := 0, closed := false } →
        ∃ u, exec .recv r = .next u ∧ u.rxStatus = .ok ∧ u.rxOpc = f.opc ∧ u.rxOrd = s.ord ∧ u.rxA = t.txA ∧
          u.rxB = 100#8 ∧ u.rxOff = 2#16 ∧ u.rxBlen.toNat = f.len.toNat + extra ∧ u.ord = r.ord ∧ u.lcg = r.lcg ∧
          u.memRead .rxb 2 f.len.toNat = s.memRead .txb 0 f.len.toNat)

/-- 20_memory R76: the completions of a TX and an RX command in flight together commute. -/
def Obligations.TxAndRxCompletionsCommute : Prop :=
  ∀ (s : State) (f : TxFlight) (g : RxFlight), s.phase = .completion → s.txFlight = some f → s.rxFlight = some g →
    ∃ t u w, exec f.cmd.instr s = .next t ∧ exec g.cmd.instr t = .next w ∧
      exec g.cmd.instr s = .next u ∧ exec f.cmd.instr u = .next w

/-- The invariant holds at reset, and no encrypted packet has been sent (60_exceptions R351). -/
def Obligations.ResetSatisfiesTheInvariant : Prop := State.reset.Inv ∧ State.reset.countsSends

/-- Every step keeps the invariant: canonical memories, bound streams exactly in a session, salt tables that are
`salt_build(SEED)`, a held raw key, a table of hexadecimal digits, a body window inside the payload. -/
def Obligations.EveryStepKeepsTheInvariant : Prop :=
  ∀ s t : State, s.Inv → step s = .next t → t.Inv

/-- 60_exceptions R351: ORD and LCG always count the same number of encrypted SENDs. -/
def Obligations.EveryStepKeepsOrdAndLcgInStep : Prop :=
  ∀ s t : State, s.phase = .issue → s.countsSends → step s = .next t → t.countsSends

/-- 10_state R28, R29, 46_send_recv R275, R285: ORD and LCG change only at the completion of an encrypted SEND that
succeeds, and by RESET, SESS.OPEN and SESS.CLOSE. -/
def Obligations.OnlyEncryptedSendsAdvanceTheOrdinal : Prop :=
  ∀ s t : State, s.phase = .issue → step s = .next t → (t.ord ≠ s.ord ∨ t.lcg ≠ s.lcg) →
    (∃ rest f, s.moves = .tx :: rest ∧ s.txFlight = some f ∧ f.cmd = .send ∧ classify s.cfg .tx f.opc ≠ .none ∧
      t.txStatus = .ok ∧ t.ord = s.ord + 1#8 ∧ t.lcg = lcgNext s.lcg) ∨
    (∃ rest v, s.moves = .writeReg 0#8 v :: rest ∧ v.setWidth 8 ∈ [0x01#8, 0x02#8, 0x05#8] ∧
      t.ord = 0#8 ∧ t.lcg = 1#32)

/-- 47_session_system R310: the transitions of SESS. -/
def Obligations.SessionStateTransitions : Prop :=
  ∀ s t : State, s.Inv → step s = .next t → t.sess ≠ s.sess →
    (t.sess = .live ∧ ∃ rest v, s.moves = .writeReg 0#8 v :: rest ∧ v.setWidth 8 = 0x02#8) ∨
    (t.sess = .none ∧ ∃ rest v, s.moves = .writeReg 0#8 v :: rest ∧ v.setWidth 8 ∈ [0x01#8, 0x05#8]) ∨
    (t.sess = .dead ∧ s.sess = .live ∧
      ((∃ rest, s.moves = .tx :: rest ∧ t.txStatus.fatal = true ∧ t.txFlight = none) ∨
       (∃ rest, s.moves = .rx :: rest ∧ t.rxStatus.fatal = true ∧ t.rxFlight = none)))

/-- 47_session_system R311, 41_salt_table R156: while CIPHER_VALID stays 1 no step changes the seed, the salt tables or the
raw key. -/
def Obligations.KeyMaterialIsImmutableInASession : Prop :=
  ∀ s t : State, s.phase = .issue → step s = .next t → s.cipherValid = true → t.cipherValid = true →
    t.seed = s.seed ∧ t.keyLen = s.keyLen ∧ t.saltTx = s.saltTx ∧ t.saltRx = s.saltRx ∧ t.keyRaw = s.keyRaw

/-- 00_scope R9, 10_state R47, 44_special_key_table R225, 10_state R40: no step changes the parameters; PB changes only by
the host's write or RESET; SKT only by SKT.GEN or RESET. -/
def Obligations.ParametersAndBuffersHaveOneWriter : Prop :=
  ∀ s t : State, s.phase = .issue → step s = .next t →
    t.cfg = s.cfg ∧
    (t.pb = s.pb ∨ (∃ rest i bs, s.moves = .memWrite .pb i bs :: rest) ∨
      ∃ rest v, s.moves = .writeReg 0#8 v :: rest ∧ v.setWidth 8 = 0x01#8) ∧
    (t.skt = s.skt ∨ ∃ rest v, s.moves = .writeReg 0#8 v :: rest ∧ v.setWidth 8 ∈ [0x01#8, 0x04#8])

/-- No instruction, no decoding and no error of CFE ends a run: `exec` always answers a next state. The machine stops only
on a host access of an index that does not exist or of a busy buffer and on a move of ENV on a stream that is not open
(20_memory R66, R67; 10_state R50); that it stops there is the model's (notes/assumptions/15). R360 gives TX no transition
while TX_BUSY = 0 and RX none while RX_BUSY = 0 or held, and ENV only an append of one or more bytes: that such a turn
and an append of none pass instead is the model's choice (DESIGN CHOICE, notes/assumptions/2), and so is that an empty schedule changes nothing (DESIGN CHOICE, notes/assumptions/1). -/
def Obligations.StepsStopOnlyOnDisallowedMoves : Prop :=
  (∀ i s, ∃ t, exec i s = .next t) ∧ (∀ s : State, s.moves = [] → step s = .next s) ∧
  ∀ (s : State) (m : Move) (rest : List Move), s.moves = m :: rest →
    ((∃ t, step s = .next t) ↔ s.allows m = true)

/-- 10_state R50, 60_exceptions R360: ENV appends to an open stream and closes it; nothing else changes. R360 gives an
append of one or more bytes: that one of none passes is the model's choice (DESIGN CHOICE, notes/assumptions/2). -/
def Obligations.EnvironmentFeedsAndClosesRxs : Prop :=
  ∀ (s : State) (q : RxStream) (rest : List Move) (bs : List Byte), s.rxs = some q →
    (s.moves = .feed bs :: rest → q.closed = false →
      step s = .next { s.advance rest with rxs := some { q with unread := q.unread ++ bs } }) ∧
    (s.moves = .close :: rest → step s = .next { s.advance rest with rxs := some { q with closed := true } })
end

