-- ==== Sys2Proof/Laws/Datapath.lean ====
section
/-! SUPPORT. The datapath functions: their lengths and their bytes, said once so that no later proof unfolds them. -/

namespace Sys2Proof.Machine

/-! ### crypt (42_crypt R170 to R173) -/

/-- The keys are the byte sequences that are not empty (42_crypt R173). -/
theorem Key.ofBytes?_eq_some {l : List Byte} {key : Key} : Key.ofBytes? l = some key ↔ key.bytes = l := by
  obtain ⟨first, others⟩ := key
  cases l <;> simp [Key.ofBytes?, Key.bytes, eq_comm]

theorem Key.ofBytes?_eq_none {l : List Byte} : Key.ofBytes? l = none ↔ l = [] := by
  cases l <;> simp [Key.ofBytes?]

theorem cryptFrom_getElem? (ord : Byte) (key : Key) (salt : Byte → Byte) (i : Nat) (buf : List Byte) (k : Nat) :
    (cryptFrom ord key salt i buf)[k]? = buf[k]?.map (cryptByte ord key salt (i + k)) := by
  induction buf generalizing i k with
  | nil => simp [cryptFrom]
  | cons b bs ih =>
    cases k with
    | zero => simp [cryptFrom]
    | succ k => simp [cryptFrom, ih, Nat.add_assoc, Nat.add_comm 1]

/-- `crypt` works on each byte by itself. -/
theorem crypt_getElem? (buf : List Byte) (ord : Byte) (key : Key) (salt : Byte → Byte) (k : Nat) :
    (crypt buf ord key salt)[k]? = buf[k]?.map (cryptByte ord key salt k) := by
  simp [crypt, cryptFrom_getElem?]

@[simp] theorem cryptFrom_length (ord : Byte) (key : Key) (salt : Byte → Byte) (i : Nat) (buf : List Byte) :
    (cryptFrom ord key salt i buf).length = buf.length := by
  induction buf generalizing i with
  | nil => rfl
  | cons b bs ih => simp [cryptFrom, ih]

/-- The length is unchanged (42_crypt R172). -/
@[simp] theorem crypt_length (buf : List Byte) (ord : Byte) (key : Key) (salt : Byte → Byte) :
    (crypt buf ord key salt).length = buf.length := cryptFrom_length ..

@[simp] theorem crypt_nil (ord : Byte) (key : Key) (salt : Byte → Byte) : crypt [] ord key salt = [] := rfl

/-! ### Salt tables (41_salt_table R150) -/

@[simp] theorem saltBuild_length (c : Config) (seed : Byte) : (saltBuild c seed).length = 256 := by
  simp [saltBuild, saltLen]

theorem saltBuild_getElem? (c : Config) (seed : Byte) (i : Nat) (h : i < 256) :
    (saltBuild c seed)[i]? = some (saltEntry c seed i) := by
  simp [saltBuild, saltLen, h]

theorem append_low_wide {w : Nat} (x : BitVec w) (y : Byte) : BitVec.extractLsb' 0 8 (x ++ y) = y := by
  apply BitVec.eq_of_getLsbD_eq
  intro i hi
  simp [BitVec.getLsbD_append, hi]

/-- The replication changes no table byte (41_salt_table R151). -/
theorem replicate32_low (v : Int) : (replicate32 v).extractLsb' 0 8 = low8 v := append_low_wide _ _

/-! ### MD5, hexadecimal digits, the special key table (43_md5_hex R190 to R210; 44_special_key_table R220) -/

@[simp] theorem leBytes_length (n v : Nat) : (leBytes n v).length = n := by
  induction n generalizing v with
  | zero => rfl
  | succ n ih => simp [leBytes, ih]

@[simp] theorem md5_length (s : List Byte) : (md5 s).length = 16 := by
  simp [md5, md5Output]

@[simp] theorem hex_length (s : List Byte) : (hex s).length = 2 * s.length := by
  induction s with
  | nil => rfl
  | cons b bs ih => simp [hex, ih]; omega

@[simp] theorem sktAppend_length (j : Nat) (t : List Byte) : (sktAppend j t).length = t.length + 32 * j := by
  induction j generalizing t with
  | zero => rfl
  | succ j ih => simp [sktAppend, ih]; omega

/-! ### Keys, trailer, fragments (45_key_derivation R245 to R258) -/

@[simp] theorem key9_length (t : Nat → Byte) (a : Half) (b : Byte) : (key9 t a b).length = 9 := by
  simp [key9, key9Len]

theorem key9_getElem? (t : Nat → Byte) (a : Half) (b : Byte) (i : Nat) (h : i < 9) :
    (key9 t a b)[i]? = some (t (key9Index a b i)) := by
  simp [key9, key9Len, h]

@[simp] theorem hashFrag_length (c : Config) (p : List Byte) : (hashFrag c p).length = c.nfrag := by
  simp [hashFrag, Config.nfrag]

theorem key9Index_lt (a : Half) (b : Byte) (i : Nat) : key9Index a b i < 1024 :=
  Nat.mod_lt _ (by decide)

/-- A sampled key depends on the table's 1024 bytes only. -/
theorem key9_congr {t u : Nat → Byte} (h : ∀ i < 1024, t i = u i) (a : Half) (b : Byte) : key9 t a b = key9 u a b := by
  simp only [key9]
  exact List.map_congr_left fun i _ => h _ (key9Index_lt a b i)

end Sys2Proof.Machine
end

