-- ==== Sys2Proof/Laws/Decode.lean ====
section
/-! SUPPORT. The decoder: what `decodeFrame` and `splitEncrypted` answer, on the bytes the encoder writes and on any
bytes. -/

namespace Sys2Proof

@[simp] theorem frameBytes_length (p : List Byte) : (frameBytes p).length = 3 + p.length := by
  simp [frameBytes]; omega

/-- The two length bytes of a header give the length back (30_encoding R91). -/
theorem frameLength_ofNat (n : Nat) (h : n ≤ 65535) :
    frameLength (BitVec.ofNat 8 (n / 256)) (BitVec.ofNat 8 n) = n := by
  simp [frameLength]; omega

theorem ofNat_mod_256 (n : Nat) : BitVec.ofNat 8 (n % 256) = BitVec.ofNat 8 n := by
  apply BitVec.eq_of_toNat_eq; simp

/-- A header with its magic and enough bytes after it. -/
theorem decodeFrame_whole (hi lo : Byte) (p rest : List Byte) (h : p.length = frameLength hi lo) :
    decodeFrame (magic :: hi :: lo :: (p ++ rest)) = .ok (p, rest) := by
  simp [decodeFrame, ← h]

/-- A frame the encoder writes, and the bytes after it. -/
theorem decodeFrame_frameBytes (p rest : List Byte) (h : p.length ≤ 65535) :
    decodeFrame (frameBytes p ++ rest) = .ok (p, rest) :=
  decodeFrame_whole _ _ _ _ (frameLength_ofNat _ h).symm

/-- Another first byte (30_encoding R92). -/
theorem decodeFrame_badMagic (b hi lo : Byte) (rest : List Byte) (h : b ≠ magic) :
    decodeFrame (b :: hi :: lo :: rest) = .error (.badMagic b) := by
  simp [decodeFrame, h]

theorem decodeFrame_headerShort (bs : List Byte) (h : bs.length < 3) : decodeFrame bs = .error .headerShort := by
  match bs, h with
  | [], _ => rfl
  | [_], _ => rfl
  | [_, _], _ => rfl

theorem decodeFrame_payloadShort (hi lo : Byte) (rest : List Byte) (h : rest.length < frameLength hi lo) :
    decodeFrame (magic :: hi :: lo :: rest) = .error .payloadShort := by
  simp [decodeFrame, Nat.not_le.2 h]

/-- Everything a whole frame can be. -/
theorem decodeFrame_ok {bs p rest : List Byte} (h : decodeFrame bs = .ok (p, rest)) :
    ∃ hi lo, bs = magic :: hi :: lo :: (p ++ rest) ∧ p.length = frameLength hi lo := by
  match bs with
  | h0 :: h1 :: h2 :: bs =>
    simp only [decodeFrame] at h
    split at h
    · cases h
    · rename_i h0'
      split at h
      · rename_i hl
        obtain ⟨rfl, rfl⟩ : _ ∧ _ := by simpa using h
        refine ⟨h1, h2, ?_, ?_⟩
        · simp [not_not.1 h0']
        · simp [hl]
      · cases h
  | [] | [_] | [_, _] => simp [decodeFrame] at h

theorem frameLength_le (hi lo : Byte) : frameLength hi lo ≤ 65535 := by
  have := hi.isLt; have := lo.isLt
  simp only [frameLength]; omega

/-- A payload that was read is at most `MAX_PAYLOAD` bytes. -/
theorem decodeFrame_length_le {bs p rest : List Byte} (h : decodeFrame bs = .ok (p, rest)) : p.length ≤ 65535 := by
  obtain ⟨hi, lo, -, hl⟩ := decodeFrame_ok h
  rw [hl]; exact frameLength_le hi lo

/-- The parts of an encrypted payload come apart where they were put together (30_encoding R106). -/
@[simp] theorem splitEncrypted_append (opc ord : Byte) (mid : List Byte) (t0 t1 t2 : Byte) :
    splitEncrypted (opc :: ord :: (mid ++ [t0, t1, t2])) = some (opc, ord, mid, t0, t1, t2) := by
  simp [splitEncrypted]

/-- Everything a split payload can be. -/
theorem splitEncrypted_some {p : List Byte} {opc ord t0 t1 t2 : Byte} {mid : List Byte}
    (h : splitEncrypted p = some (opc, ord, mid, t0, t1, t2)) : p = opc :: ord :: (mid ++ [t0, t1, t2]) := by
  match p with
  | [] | [_] => simp [splitEncrypted] at h
  | a :: b :: rest =>
    simp only [splitEncrypted] at h
    split at h
    · rename_i u0 u1 u2 hd
      obtain ⟨rfl, rfl, rfl, rfl, rfl, rfl⟩ : _ ∧ _ ∧ _ ∧ _ ∧ _ ∧ _ := by simpa using h
      rw [← hd, List.take_append_drop]
    · cases h

/-- A payload comes apart exactly from 5 bytes on (46_send_recv R284). -/
theorem splitEncrypted_none (p : List Byte) : splitEncrypted p = none ↔ p.length < 5 := by
  constructor
  · intro h
    match p with
    | [] | [_] => simp
    | a :: b :: rest =>
      by_contra hl
      have hl : 3 ≤ rest.length := by simp only [List.length_cons] at hl; omega
      simp only [splitEncrypted] at h
      have hd : (rest.drop (rest.length - 3)).length = 3 := by simp; omega
      match hr : rest.drop (rest.length - 3), hd with
      | [x, y, z], _ => simp [hr] at h
  · intro h
    cases hs : splitEncrypted p with
    | none => rfl
    | some x =>
      obtain ⟨opc, ord, mid, t0, t1, t2⟩ := x
      have := splitEncrypted_some hs
      subst this
      simp at h; omega

/-- Well-formedness as two facts (30_encoding R104, R108). -/
theorem wellFormed_iff (nfrag : Nat) (i : Instr) :
    i.wellFormed nfrag = true ↔ i.payloadLength ≤ 65535 ∧ i.fragmentsOk nfrag = true := by
  simp only [Instr.wellFormed, Bool.and_eq_true, decide_eq_true_eq]

/-- A command's code decodes to it (30_encoding R110). -/
theorem decodeCommand_code (code : Byte) {i : Instr} (h : decodeCommand code = .ok i) : commandCode i = code := by
  unfold decodeCommand at h
  split at h <;> first
    | (rename_i hc; injection h with h; subst h; exact BitVec.eq_of_toNat_eq (by simp [commandCode, hc]))
    | cases h

end Sys2Proof
end

