-- ==== Sys2Proof/Laws/State.lean ====
section
/-! SUPPORT. One lemma per field of State per named update: what each update leaves and what it writes. They are true
by rfl, so that no proof unfolds a record update. -/

namespace Sys2Proof.Machine

variable (s : State)


/-! ### setIssue -/

@[simp] theorem State.setIssue_issueStatus (e : Status) : (s.setIssue e).issueStatus = e := rfl
@[simp] theorem State.setIssue_sess (e : Status) : (s.setIssue e).sess = s.sess := rfl
@[simp] theorem State.setIssue_cipherValid (e : Status) : (s.setIssue e).cipherValid = s.cipherValid := rfl
@[simp] theorem State.setIssue_sktValid (e : Status) : (s.setIssue e).sktValid = s.sktValid := rfl
@[simp] theorem State.setIssue_ord (e : Status) : (s.setIssue e).ord = s.ord := rfl
@[simp] theorem State.setIssue_lcg (e : Status) : (s.setIssue e).lcg = s.lcg := rfl
@[simp] theorem State.setIssue_seed (e : Status) : (s.setIssue e).seed = s.seed := rfl
@[simp] theorem State.setIssue_keyLen (e : Status) : (s.setIssue e).keyLen = s.keyLen := rfl
@[simp] theorem State.setIssue_argSeed (e : Status) : (s.setIssue e).argSeed = s.argSeed := rfl
@[simp] theorem State.setIssue_pbLen (e : Status) : (s.setIssue e).pbLen = s.pbLen := rfl
@[simp] theorem State.setIssue_txOpc (e : Status) : (s.setIssue e).txOpc = s.txOpc := rfl
@[simp] theorem State.setIssue_txbLen (e : Status) : (s.setIssue e).txbLen = s.txbLen := rfl
@[simp] theorem State.setIssue_argOrdTx (e : Status) : (s.setIssue e).argOrdTx = s.argOrdTx := rfl
@[simp] theorem State.setIssue_txStatus (e : Status) : (s.setIssue e).txStatus = s.txStatus := rfl
@[simp] theorem State.setIssue_txClass (e : Status) : (s.setIssue e).txClass = s.txClass := rfl
@[simp] theorem State.setIssue_txA (e : Status) : (s.setIssue e).txA = s.txA := rfl
@[simp] theorem State.setIssue_txB (e : Status) : (s.setIssue e).txB = s.txB := rfl
@[simp] theorem State.setIssue_argOrdRx (e : Status) : (s.setIssue e).argOrdRx = s.argOrdRx := rfl
@[simp] theorem State.setIssue_rxStatus (e : Status) : (s.setIssue e).rxStatus = s.rxStatus := rfl
@[simp] theorem State.setIssue_rxbLen (e : Status) : (s.setIssue e).rxbLen = s.rxbLen := rfl
@[simp] theorem State.setIssue_rxOpc (e : Status) : (s.setIssue e).rxOpc = s.rxOpc := rfl
@[simp] theorem State.setIssue_rxClass (e : Status) : (s.setIssue e).rxClass = s.rxClass := rfl
@[simp] theorem State.setIssue_rxOrd (e : Status) : (s.setIssue e).rxOrd = s.rxOrd := rfl
@[simp] theorem State.setIssue_rxA (e : Status) : (s.setIssue e).rxA = s.rxA := rfl
@[simp] theorem State.setIssue_rxB (e : Status) : (s.setIssue e).rxB = s.rxB := rfl
@[simp] theorem State.setIssue_rxOff (e : Status) : (s.setIssue e).rxOff = s.rxOff := rfl
@[simp] theorem State.setIssue_rxBlen (e : Status) : (s.setIssue e).rxBlen = s.rxBlen := rfl
@[simp] theorem State.setIssue_txFlight (e : Status) : (s.setIssue e).txFlight = s.txFlight := rfl
@[simp] theorem State.setIssue_rxFlight (e : Status) : (s.setIssue e).rxFlight = s.rxFlight := rfl
@[simp] theorem State.setIssue_saltTx (e : Status) : (s.setIssue e).saltTx = s.saltTx := rfl
@[simp] theorem State.setIssue_saltRx (e : Status) : (s.setIssue e).saltRx = s.saltRx := rfl
@[simp] theorem State.setIssue_keyRaw (e : Status) : (s.setIssue e).keyRaw = s.keyRaw := rfl
@[simp] theorem State.setIssue_skt (e : Status) : (s.setIssue e).skt = s.skt := rfl
@[simp] theorem State.setIssue_pb (e : Status) : (s.setIssue e).pb = s.pb := rfl
@[simp] theorem State.setIssue_txb (e : Status) : (s.setIssue e).txb = s.txb := rfl
@[simp] theorem State.setIssue_rxb (e : Status) : (s.setIssue e).rxb = s.rxb := rfl
@[simp] theorem State.setIssue_rxs (e : Status) : (s.setIssue e).rxs = s.rxs := rfl
@[simp] theorem State.setIssue_txs (e : Status) : (s.setIssue e).txs = s.txs := rfl
@[simp] theorem State.setIssue_txsHistory (e : Status) : (s.setIssue e).txsHistory = s.txsHistory := rfl
@[simp] theorem State.setIssue_cfg (e : Status) : (s.setIssue e).cfg = s.cfg := rfl
@[simp] theorem State.setIssue_moves (e : Status) : (s.setIssue e).moves = s.moves := rfl
@[simp] theorem State.setIssue_tick (e : Status) : (s.setIssue e).tick = s.tick := rfl
@[simp] theorem State.setIssue_phase (e : Status) : (s.setIssue e).phase = s.phase := rfl
@[simp] theorem State.setIssue_hostPort (e : Status) : (s.setIssue e).hostPort = s.hostPort := rfl

/-! ### advance -/

@[simp] theorem State.advance_issueStatus (r : List Move) : (s.advance r).issueStatus = s.issueStatus := rfl
@[simp] theorem State.advance_sess (r : List Move) : (s.advance r).sess = s.sess := rfl
@[simp] theorem State.advance_cipherValid (r : List Move) : (s.advance r).cipherValid = s.cipherValid := rfl
@[simp] theorem State.advance_sktValid (r : List Move) : (s.advance r).sktValid = s.sktValid := rfl
@[simp] theorem State.advance_ord (r : List Move) : (s.advance r).ord = s.ord := rfl
@[simp] theorem State.advance_lcg (r : List Move) : (s.advance r).lcg = s.lcg := rfl
@[simp] theorem State.advance_seed (r : List Move) : (s.advance r).seed = s.seed := rfl
@[simp] theorem State.advance_keyLen (r : List Move) : (s.advance r).keyLen = s.keyLen := rfl
@[simp] theorem State.advance_argSeed (r : List Move) : (s.advance r).argSeed = s.argSeed := rfl
@[simp] theorem State.advance_pbLen (r : List Move) : (s.advance r).pbLen = s.pbLen := rfl
@[simp] theorem State.advance_txOpc (r : List Move) : (s.advance r).txOpc = s.txOpc := rfl
@[simp] theorem State.advance_txbLen (r : List Move) : (s.advance r).txbLen = s.txbLen := rfl
@[simp] theorem State.advance_argOrdTx (r : List Move) : (s.advance r).argOrdTx = s.argOrdTx := rfl
@[simp] theorem State.advance_txStatus (r : List Move) : (s.advance r).txStatus = s.txStatus := rfl
@[simp] theorem State.advance_txClass (r : List Move) : (s.advance r).txClass = s.txClass := rfl
@[simp] theorem State.advance_txA (r : List Move) : (s.advance r).txA = s.txA := rfl
@[simp] theorem State.advance_txB (r : List Move) : (s.advance r).txB = s.txB := rfl
@[simp] theorem State.advance_argOrdRx (r : List Move) : (s.advance r).argOrdRx = s.argOrdRx := rfl
@[simp] theorem State.advance_rxStatus (r : List Move) : (s.advance r).rxStatus = s.rxStatus := rfl
@[simp] theorem State.advance_rxbLen (r : List Move) : (s.advance r).rxbLen = s.rxbLen := rfl
@[simp] theorem State.advance_rxOpc (r : List Move) : (s.advance r).rxOpc = s.rxOpc := rfl
@[simp] theorem State.advance_rxClass (r : List Move) : (s.advance r).rxClass = s.rxClass := rfl
@[simp] theorem State.advance_rxOrd (r : List Move) : (s.advance r).rxOrd = s.rxOrd := rfl
@[simp] theorem State.advance_rxA (r : List Move) : (s.advance r).rxA = s.rxA := rfl
@[simp] theorem State.advance_rxB (r : List Move) : (s.advance r).rxB = s.rxB := rfl
@[simp] theorem State.advance_rxOff (r : List Move) : (s.advance r).rxOff = s.rxOff := rfl
@[simp] theorem State.advance_rxBlen (r : List Move) : (s.advance r).rxBlen = s.rxBlen := rfl
@[simp] theorem State.advance_txFlight (r : List Move) : (s.advance r).txFlight = s.txFlight := rfl
@[simp] theorem State.advance_rxFlight (r : List Move) : (s.advance r).rxFlight = s.rxFlight := rfl
@[simp] theorem State.advance_saltTx (r : List Move) : (s.advance r).saltTx = s.saltTx := rfl
@[simp] theorem State.advance_saltRx (r : List Move) : (s.advance r).saltRx = s.saltRx := rfl
@[simp] theorem State.advance_keyRaw (r : List Move) : (s.advance r).keyRaw = s.keyRaw := rfl
@[simp] theorem State.advance_skt (r : List Move) : (s.advance r).skt = s.skt := rfl
@[simp] theorem State.advance_pb (r : List Move) : (s.advance r).pb = s.pb := rfl
@[simp] theorem State.advance_txb (r : List Move) : (s.advance r).txb = s.txb := rfl
@[simp] theorem State.advance_rxb (r : List Move) : (s.advance r).rxb = s.rxb := rfl
@[simp] theorem State.advance_rxs (r : List Move) : (s.advance r).rxs = s.rxs := rfl
@[simp] theorem State.advance_txs (r : List Move) : (s.advance r).txs = s.txs := rfl
@[simp] theorem State.advance_txsHistory (r : List Move) : (s.advance r).txsHistory = s.txsHistory := rfl
@[simp] theorem State.advance_cfg (r : List Move) : (s.advance r).cfg = s.cfg := rfl
@[simp] theorem State.advance_moves (r : List Move) : (s.advance r).moves = r := rfl
@[simp] theorem State.advance_tick (r : List Move) : (s.advance r).tick = s.tick + 1 := rfl
@[simp] theorem State.advance_phase (r : List Move) : (s.advance r).phase = s.phase := rfl
@[simp] theorem State.advance_hostPort (r : List Move) : (s.advance r).hostPort = s.hostPort := rfl

/-! ### hostReadReg -/

@[simp] theorem State.hostReadReg_issueStatus (no : Byte) : (s.hostReadReg no).issueStatus = s.issueStatus := rfl
@[simp] theorem State.hostReadReg_sess (no : Byte) : (s.hostReadReg no).sess = s.sess := rfl
@[simp] theorem State.hostReadReg_cipherValid (no : Byte) : (s.hostReadReg no).cipherValid = s.cipherValid := rfl
@[simp] theorem State.hostReadReg_sktValid (no : Byte) : (s.hostReadReg no).sktValid = s.sktValid := rfl
@[simp] theorem State.hostReadReg_ord (no : Byte) : (s.hostReadReg no).ord = s.ord := rfl
@[simp] theorem State.hostReadReg_lcg (no : Byte) : (s.hostReadReg no).lcg = s.lcg := rfl
@[simp] theorem State.hostReadReg_seed (no : Byte) : (s.hostReadReg no).seed = s.seed := rfl
@[simp] theorem State.hostReadReg_keyLen (no : Byte) : (s.hostReadReg no).keyLen = s.keyLen := rfl
@[simp] theorem State.hostReadReg_argSeed (no : Byte) : (s.hostReadReg no).argSeed = s.argSeed := rfl
@[simp] theorem State.hostReadReg_pbLen (no : Byte) : (s.hostReadReg no).pbLen = s.pbLen := rfl
@[simp] theorem State.hostReadReg_txOpc (no : Byte) : (s.hostReadReg no).txOpc = s.txOpc := rfl
@[simp] theorem State.hostReadReg_txbLen (no : Byte) : (s.hostReadReg no).txbLen = s.txbLen := rfl
@[simp] theorem State.hostReadReg_argOrdTx (no : Byte) : (s.hostReadReg no).argOrdTx = s.argOrdTx := rfl
@[simp] theorem State.hostReadReg_txStatus (no : Byte) : (s.hostReadReg no).txStatus = s.txStatus := rfl
@[simp] theorem State.hostReadReg_txClass (no : Byte) : (s.hostReadReg no).txClass = s.txClass := rfl
@[simp] theorem State.hostReadReg_txA (no : Byte) : (s.hostReadReg no).txA = s.txA := rfl
@[simp] theorem State.hostReadReg_txB (no : Byte) : (s.hostReadReg no).txB = s.txB := rfl
@[simp] theorem State.hostReadReg_argOrdRx (no : Byte) : (s.hostReadReg no).argOrdRx = s.argOrdRx := rfl
@[simp] theorem State.hostReadReg_rxStatus (no : Byte) : (s.hostReadReg no).rxStatus = s.rxStatus := rfl
@[simp] theorem State.hostReadReg_rxbLen (no : Byte) : (s.hostReadReg no).rxbLen = s.rxbLen := rfl
@[simp] theorem State.hostReadReg_rxOpc (no : Byte) : (s.hostReadReg no).rxOpc = s.rxOpc := rfl
@[simp] theorem State.hostReadReg_rxClass (no : Byte) : (s.hostReadReg no).rxClass = s.rxClass := rfl
@[simp] theorem State.hostReadReg_rxOrd (no : Byte) : (s.hostReadReg no).rxOrd = s.rxOrd := rfl
@[simp] theorem State.hostReadReg_rxA (no : Byte) : (s.hostReadReg no).rxA = s.rxA := rfl
@[simp] theorem State.hostReadReg_rxB (no : Byte) : (s.hostReadReg no).rxB = s.rxB := rfl
@[simp] theorem State.hostReadReg_rxOff (no : Byte) : (s.hostReadReg no).rxOff = s.rxOff := rfl
@[simp] theorem State.hostReadReg_rxBlen (no : Byte) : (s.hostReadReg no).rxBlen = s.rxBlen := rfl
@[simp] theorem State.hostReadReg_txFlight (no : Byte) : (s.hostReadReg no).txFlight = s.txFlight := rfl
@[simp] theorem State.hostReadReg_rxFlight (no : Byte) : (s.hostReadReg no).rxFlight = s.rxFlight := rfl
@[simp] theorem State.hostReadReg_saltTx (no : Byte) : (s.hostReadReg no).saltTx = s.saltTx := rfl
@[simp] theorem State.hostReadReg_saltRx (no : Byte) : (s.hostReadReg no).saltRx = s.saltRx := rfl
@[simp] theorem State.hostReadReg_keyRaw (no : Byte) : (s.hostReadReg no).keyRaw = s.keyRaw := rfl
@[simp] theorem State.hostReadReg_skt (no : Byte) : (s.hostReadReg no).skt = s.skt := rfl
@[simp] theorem State.hostReadReg_pb (no : Byte) : (s.hostReadReg no).pb = s.pb := rfl
@[simp] theorem State.hostReadReg_txb (no : Byte) : (s.hostReadReg no).txb = s.txb := rfl
@[simp] theorem State.hostReadReg_rxb (no : Byte) : (s.hostReadReg no).rxb = s.rxb := rfl
@[simp] theorem State.hostReadReg_rxs (no : Byte) : (s.hostReadReg no).rxs = s.rxs := rfl
@[simp] theorem State.hostReadReg_txs (no : Byte) : (s.hostReadReg no).txs = s.txs := rfl
@[simp] theorem State.hostReadReg_txsHistory (no : Byte) : (s.hostReadReg no).txsHistory = s.txsHistory := rfl
@[simp] theorem State.hostReadReg_cfg (no : Byte) : (s.hostReadReg no).cfg = s.cfg := rfl
@[simp] theorem State.hostReadReg_moves (no : Byte) : (s.hostReadReg no).moves = s.moves := rfl
@[simp] theorem State.hostReadReg_tick (no : Byte) : (s.hostReadReg no).tick = s.tick := rfl
@[simp] theorem State.hostReadReg_phase (no : Byte) : (s.hostReadReg no).phase = s.phase := rfl
@[simp] theorem State.hostReadReg_hostPort (no : Byte) : (s.hostReadReg no).hostPort = .value (s.readReg no) := rfl

/-! ### rxTake -/

@[simp] theorem State.rxTake_issueStatus (n : Nat) : (s.rxTake n).issueStatus = s.issueStatus := rfl
@[simp] theorem State.rxTake_sess (n : Nat) : (s.rxTake n).sess = s.sess := rfl
@[simp] theorem State.rxTake_cipherValid (n : Nat) : (s.rxTake n).cipherValid = s.cipherValid := rfl
@[simp] theorem State.rxTake_sktValid (n : Nat) : (s.rxTake n).sktValid = s.sktValid := rfl
@[simp] theorem State.rxTake_ord (n : Nat) : (s.rxTake n).ord = s.ord := rfl
@[simp] theorem State.rxTake_lcg (n : Nat) : (s.rxTake n).lcg = s.lcg := rfl
@[simp] theorem State.rxTake_seed (n : Nat) : (s.rxTake n).seed = s.seed := rfl
@[simp] theorem State.rxTake_keyLen (n : Nat) : (s.rxTake n).keyLen = s.keyLen := rfl
@[simp] theorem State.rxTake_argSeed (n : Nat) : (s.rxTake n).argSeed = s.argSeed := rfl
@[simp] theorem State.rxTake_pbLen (n : Nat) : (s.rxTake n).pbLen = s.pbLen := rfl
@[simp] theorem State.rxTake_txOpc (n : Nat) : (s.rxTake n).txOpc = s.txOpc := rfl
@[simp] theorem State.rxTake_txbLen (n : Nat) : (s.rxTake n).txbLen = s.txbLen := rfl
@[simp] theorem State.rxTake_argOrdTx (n : Nat) : (s.rxTake n).argOrdTx = s.argOrdTx := rfl
@[simp] theorem State.rxTake_txStatus (n : Nat) : (s.rxTake n).txStatus = s.txStatus := rfl
@[simp] theorem State.rxTake_txClass (n : Nat) : (s.rxTake n).txClass = s.txClass := rfl
@[simp] theorem State.rxTake_txA (n : Nat) : (s.rxTake n).txA = s.txA := rfl
@[simp] theorem State.rxTake_txB (n : Nat) : (s.rxTake n).txB = s.txB := rfl
@[simp] theorem State.rxTake_argOrdRx (n : Nat) : (s.rxTake n).argOrdRx = s.argOrdRx := rfl
@[simp] theorem State.rxTake_rxStatus (n : Nat) : (s.rxTake n).rxStatus = s.rxStatus := rfl
@[simp] theorem State.rxTake_rxbLen (n : Nat) : (s.rxTake n).rxbLen = s.rxbLen := rfl
@[simp] theorem State.rxTake_rxOpc (n : Nat) : (s.rxTake n).rxOpc = s.rxOpc := rfl
@[simp] theorem State.rxTake_rxClass (n : Nat) : (s.rxTake n).rxClass = s.rxClass := rfl
@[simp] theorem State.rxTake_rxOrd (n : Nat) : (s.rxTake n).rxOrd = s.rxOrd := rfl
@[simp] theorem State.rxTake_rxA (n : Nat) : (s.rxTake n).rxA = s.rxA := rfl
@[simp] theorem State.rxTake_rxB (n : Nat) : (s.rxTake n).rxB = s.rxB := rfl
@[simp] theorem State.rxTake_rxOff (n : Nat) : (s.rxTake n).rxOff = s.rxOff := rfl
@[simp] theorem State.rxTake_rxBlen (n : Nat) : (s.rxTake n).rxBlen = s.rxBlen := rfl
@[simp] theorem State.rxTake_txFlight (n : Nat) : (s.rxTake n).txFlight = s.txFlight := rfl
@[simp] theorem State.rxTake_rxFlight (n : Nat) : (s.rxTake n).rxFlight = s.rxFlight := rfl
@[simp] theorem State.rxTake_saltTx (n : Nat) : (s.rxTake n).saltTx = s.saltTx := rfl
@[simp] theorem State.rxTake_saltRx (n : Nat) : (s.rxTake n).saltRx = s.saltRx := rfl
@[simp] theorem State.rxTake_keyRaw (n : Nat) : (s.rxTake n).keyRaw = s.keyRaw := rfl
@[simp] theorem State.rxTake_skt (n : Nat) : (s.rxTake n).skt = s.skt := rfl
@[simp] theorem State.rxTake_pb (n : Nat) : (s.rxTake n).pb = s.pb := rfl
@[simp] theorem State.rxTake_txb (n : Nat) : (s.rxTake n).txb = s.txb := rfl
@[simp] theorem State.rxTake_rxb (n : Nat) : (s.rxTake n).rxb = s.rxb := rfl
@[simp] theorem State.rxTake_rxs (n : Nat) : (s.rxTake n).rxs = s.rxs.map (·.take n) := rfl
@[simp] theorem State.rxTake_txs (n : Nat) : (s.rxTake n).txs = s.txs := rfl
@[simp] theorem State.rxTake_txsHistory (n : Nat) : (s.rxTake n).txsHistory = s.txsHistory := rfl
@[simp] theorem State.rxTake_cfg (n : Nat) : (s.rxTake n).cfg = s.cfg := rfl
@[simp] theorem State.rxTake_moves (n : Nat) : (s.rxTake n).moves = s.moves := rfl
@[simp] theorem State.rxTake_tick (n : Nat) : (s.rxTake n).tick = s.tick := rfl
@[simp] theorem State.rxTake_phase (n : Nat) : (s.rxTake n).phase = s.phase := rfl
@[simp] theorem State.rxTake_hostPort (n : Nat) : (s.rxTake n).hostPort = s.hostPort := rfl

/-! ### txAppend -/

@[simp] theorem State.txAppend_issueStatus (bs : List Byte) : (s.txAppend bs).issueStatus = s.issueStatus := rfl
@[simp] theorem State.txAppend_sess (bs : List Byte) : (s.txAppend bs).sess = s.sess := rfl
@[simp] theorem State.txAppend_cipherValid (bs : List Byte) : (s.txAppend bs).cipherValid = s.cipherValid := rfl
@[simp] theorem State.txAppend_sktValid (bs : List Byte) : (s.txAppend bs).sktValid = s.sktValid := rfl
@[simp] theorem State.txAppend_ord (bs : List Byte) : (s.txAppend bs).ord = s.ord := rfl
@[simp] theorem State.txAppend_lcg (bs : List Byte) : (s.txAppend bs).lcg = s.lcg := rfl
@[simp] theorem State.txAppend_seed (bs : List Byte) : (s.txAppend bs).seed = s.seed := rfl
@[simp] theorem State.txAppend_keyLen (bs : List Byte) : (s.txAppend bs).keyLen = s.keyLen := rfl
@[simp] theorem State.txAppend_argSeed (bs : List Byte) : (s.txAppend bs).argSeed = s.argSeed := rfl
@[simp] theorem State.txAppend_pbLen (bs : List Byte) : (s.txAppend bs).pbLen = s.pbLen := rfl
@[simp] theorem State.txAppend_txOpc (bs : List Byte) : (s.txAppend bs).txOpc = s.txOpc := rfl
@[simp] theorem State.txAppend_txbLen (bs : List Byte) : (s.txAppend bs).txbLen = s.txbLen := rfl
@[simp] theorem State.txAppend_argOrdTx (bs : List Byte) : (s.txAppend bs).argOrdTx = s.argOrdTx := rfl
@[simp] theorem State.txAppend_txStatus (bs : List Byte) : (s.txAppend bs).txStatus = s.txStatus := rfl
@[simp] theorem State.txAppend_txClass (bs : List Byte) : (s.txAppend bs).txClass = s.txClass := rfl
@[simp] theorem State.txAppend_txA (bs : List Byte) : (s.txAppend bs).txA = s.txA := rfl
@[simp] theorem State.txAppend_txB (bs : List Byte) : (s.txAppend bs).txB = s.txB := rfl
@[simp] theorem State.txAppend_argOrdRx (bs : List Byte) : (s.txAppend bs).argOrdRx = s.argOrdRx := rfl
@[simp] theorem State.txAppend_rxStatus (bs : List Byte) : (s.txAppend bs).rxStatus = s.rxStatus := rfl
@[simp] theorem State.txAppend_rxbLen (bs : List Byte) : (s.txAppend bs).rxbLen = s.rxbLen := rfl
@[simp] theorem State.txAppend_rxOpc (bs : List Byte) : (s.txAppend bs).rxOpc = s.rxOpc := rfl
@[simp] theorem State.txAppend_rxClass (bs : List Byte) : (s.txAppend bs).rxClass = s.rxClass := rfl
@[simp] theorem State.txAppend_rxOrd (bs : List Byte) : (s.txAppend bs).rxOrd = s.rxOrd := rfl
@[simp] theorem State.txAppend_rxA (bs : List Byte) : (s.txAppend bs).rxA = s.rxA := rfl
@[simp] theorem State.txAppend_rxB (bs : List Byte) : (s.txAppend bs).rxB = s.rxB := rfl
@[simp] theorem State.txAppend_rxOff (bs : List Byte) : (s.txAppend bs).rxOff = s.rxOff := rfl
@[simp] theorem State.txAppend_rxBlen (bs : List Byte) : (s.txAppend bs).rxBlen = s.rxBlen := rfl
@[simp] theorem State.txAppend_txFlight (bs : List Byte) : (s.txAppend bs).txFlight = s.txFlight := rfl
@[simp] theorem State.txAppend_rxFlight (bs : List Byte) : (s.txAppend bs).rxFlight = s.rxFlight := rfl
@[simp] theorem State.txAppend_saltTx (bs : List Byte) : (s.txAppend bs).saltTx = s.saltTx := rfl
@[simp] theorem State.txAppend_saltRx (bs : List Byte) : (s.txAppend bs).saltRx = s.saltRx := rfl
@[simp] theorem State.txAppend_keyRaw (bs : List Byte) : (s.txAppend bs).keyRaw = s.keyRaw := rfl
@[simp] theorem State.txAppend_skt (bs : List Byte) : (s.txAppend bs).skt = s.skt := rfl
@[simp] theorem State.txAppend_pb (bs : List Byte) : (s.txAppend bs).pb = s.pb := rfl
@[simp] theorem State.txAppend_txb (bs : List Byte) : (s.txAppend bs).txb = s.txb := rfl
@[simp] theorem State.txAppend_rxb (bs : List Byte) : (s.txAppend bs).rxb = s.rxb := rfl
@[simp] theorem State.txAppend_rxs (bs : List Byte) : (s.txAppend bs).rxs = s.rxs := rfl
@[simp] theorem State.txAppend_txs (bs : List Byte) : (s.txAppend bs).txs = s.txs.map (· ++ bs) := rfl
@[simp] theorem State.txAppend_txsHistory (bs : List Byte) : (s.txAppend bs).txsHistory = s.txsHistory := rfl
@[simp] theorem State.txAppend_cfg (bs : List Byte) : (s.txAppend bs).cfg = s.cfg := rfl
@[simp] theorem State.txAppend_moves (bs : List Byte) : (s.txAppend bs).moves = s.moves := rfl
@[simp] theorem State.txAppend_tick (bs : List Byte) : (s.txAppend bs).tick = s.tick := rfl
@[simp] theorem State.txAppend_phase (bs : List Byte) : (s.txAppend bs).phase = s.phase := rfl
@[simp] theorem State.txAppend_hostPort (bs : List Byte) : (s.txAppend bs).hostPort = s.hostPort := rfl

/-! ### storePayload -/

@[simp] theorem State.storePayload_issueStatus (p : List Byte) : (s.storePayload p).issueStatus = s.issueStatus := rfl
@[simp] theorem State.storePayload_sess (p : List Byte) : (s.storePayload p).sess = s.sess := rfl
@[simp] theorem State.storePayload_cipherValid (p : List Byte) : (s.storePayload p).cipherValid = s.cipherValid := rfl
@[simp] theorem State.storePayload_sktValid (p : List Byte) : (s.storePayload p).sktValid = s.sktValid := rfl
@[simp] theorem State.storePayload_ord (p : List Byte) : (s.storePayload p).ord = s.ord := rfl
@[simp] theorem State.storePayload_lcg (p : List Byte) : (s.storePayload p).lcg = s.lcg := rfl
@[simp] theorem State.storePayload_seed (p : List Byte) : (s.storePayload p).seed = s.seed := rfl
@[simp] theorem State.storePayload_keyLen (p : List Byte) : (s.storePayload p).keyLen = s.keyLen := rfl
@[simp] theorem State.storePayload_argSeed (p : List Byte) : (s.storePayload p).argSeed = s.argSeed := rfl
@[simp] theorem State.storePayload_pbLen (p : List Byte) : (s.storePayload p).pbLen = s.pbLen := rfl
@[simp] theorem State.storePayload_txOpc (p : List Byte) : (s.storePayload p).txOpc = s.txOpc := rfl
@[simp] theorem State.storePayload_txbLen (p : List Byte) : (s.storePayload p).txbLen = s.txbLen := rfl
@[simp] theorem State.storePayload_argOrdTx (p : List Byte) : (s.storePayload p).argOrdTx = s.argOrdTx := rfl
@[simp] theorem State.storePayload_txStatus (p : List Byte) : (s.storePayload p).txStatus = s.txStatus := rfl
@[simp] theorem State.storePayload_txClass (p : List Byte) : (s.storePayload p).txClass = s.txClass := rfl
@[simp] theorem State.storePayload_txA (p : List Byte) : (s.storePayload p).txA = s.txA := rfl
@[simp] theorem State.storePayload_txB (p : List Byte) : (s.storePayload p).txB = s.txB := rfl
@[simp] theorem State.storePayload_argOrdRx (p : List Byte) : (s.storePayload p).argOrdRx = s.argOrdRx := rfl
@[simp] theorem State.storePayload_rxStatus (p : List Byte) : (s.storePayload p).rxStatus = s.rxStatus := rfl
@[simp] theorem State.storePayload_rxbLen (p : List Byte) : (s.storePayload p).rxbLen = BitVec.ofNat 16 p.length := rfl
@[simp] theorem State.storePayload_rxOpc (p : List Byte) : (s.storePayload p).rxOpc = s.rxOpc := rfl
@[simp] theorem State.storePayload_rxClass (p : List Byte) : (s.storePayload p).rxClass = s.rxClass := rfl
@[simp] theorem State.storePayload_rxOrd (p : List Byte) : (s.storePayload p).rxOrd = s.rxOrd := rfl
@[simp] theorem State.storePayload_rxA (p : List Byte) : (s.storePayload p).rxA = s.rxA := rfl
@[simp] theorem State.storePayload_rxB (p : List Byte) : (s.storePayload p).rxB = s.rxB := rfl
@[simp] theorem State.storePayload_rxOff (p : List Byte) : (s.storePayload p).rxOff = s.rxOff := rfl
@[simp] theorem State.storePayload_rxBlen (p : List Byte) : (s.storePayload p).rxBlen = s.rxBlen := rfl
@[simp] theorem State.storePayload_txFlight (p : List Byte) : (s.storePayload p).txFlight = s.txFlight := rfl
@[simp] theorem State.storePayload_rxFlight (p : List Byte) : (s.storePayload p).rxFlight = s.rxFlight := rfl
@[simp] theorem State.storePayload_saltTx (p : List Byte) : (s.storePayload p).saltTx = s.saltTx := rfl
@[simp] theorem State.storePayload_saltRx (p : List Byte) : (s.storePayload p).saltRx = s.saltRx := rfl
@[simp] theorem State.storePayload_keyRaw (p : List Byte) : (s.storePayload p).keyRaw = s.keyRaw := rfl
@[simp] theorem State.storePayload_skt (p : List Byte) : (s.storePayload p).skt = s.skt := rfl
@[simp] theorem State.storePayload_pb (p : List Byte) : (s.storePayload p).pb = s.pb := rfl
@[simp] theorem State.storePayload_txb (p : List Byte) : (s.storePayload p).txb = s.txb := rfl
@[simp] theorem State.storePayload_rxb (p : List Byte) : (s.storePayload p).rxb = s.rxb.store 0 p := rfl
@[simp] theorem State.storePayload_rxs (p : List Byte) : (s.storePayload p).rxs = s.rxs := rfl
@[simp] theorem State.storePayload_txs (p : List Byte) : (s.storePayload p).txs = s.txs := rfl
@[simp] theorem State.storePayload_txsHistory (p : List Byte) : (s.storePayload p).txsHistory = s.txsHistory := rfl
@[simp] theorem State.storePayload_cfg (p : List Byte) : (s.storePayload p).cfg = s.cfg := rfl
@[simp] theorem State.storePayload_moves (p : List Byte) : (s.storePayload p).moves = s.moves := rfl
@[simp] theorem State.storePayload_tick (p : List Byte) : (s.storePayload p).tick = s.tick := rfl
@[simp] theorem State.storePayload_phase (p : List Byte) : (s.storePayload p).phase = s.phase := rfl
@[simp] theorem State.storePayload_hostPort (p : List Byte) : (s.storePayload p).hostPort = s.hostPort := rfl

/-! ### setWindow -/

@[simp] theorem State.setWindow_issueStatus (o l : Nat) : (s.setWindow o l).issueStatus = s.issueStatus := rfl
@[simp] theorem State.setWindow_sess (o l : Nat) : (s.setWindow o l).sess = s.sess := rfl
@[simp] theorem State.setWindow_cipherValid (o l : Nat) : (s.setWindow o l).cipherValid = s.cipherValid := rfl
@[simp] theorem State.setWindow_sktValid (o l : Nat) : (s.setWindow o l).sktValid = s.sktValid := rfl
@[simp] theorem State.setWindow_ord (o l : Nat) : (s.setWindow o l).ord = s.ord := rfl
@[simp] theorem State.setWindow_lcg (o l : Nat) : (s.setWindow o l).lcg = s.lcg := rfl
@[simp] theorem State.setWindow_seed (o l : Nat) : (s.setWindow o l).seed = s.seed := rfl
@[simp] theorem State.setWindow_keyLen (o l : Nat) : (s.setWindow o l).keyLen = s.keyLen := rfl
@[simp] theorem State.setWindow_argSeed (o l : Nat) : (s.setWindow o l).argSeed = s.argSeed := rfl
@[simp] theorem State.setWindow_pbLen (o l : Nat) : (s.setWindow o l).pbLen = s.pbLen := rfl
@[simp] theorem State.setWindow_txOpc (o l : Nat) : (s.setWindow o l).txOpc = s.txOpc := rfl
@[simp] theorem State.setWindow_txbLen (o l : Nat) : (s.setWindow o l).txbLen = s.txbLen := rfl
@[simp] theorem State.setWindow_argOrdTx (o l : Nat) : (s.setWindow o l).argOrdTx = s.argOrdTx := rfl
@[simp] theorem State.setWindow_txStatus (o l : Nat) : (s.setWindow o l).txStatus = s.txStatus := rfl
@[simp] theorem State.setWindow_txClass (o l : Nat) : (s.setWindow o l).txClass = s.txClass := rfl
@[simp] theorem State.setWindow_txA (o l : Nat) : (s.setWindow o l).txA = s.txA := rfl
@[simp] theorem State.setWindow_txB (o l : Nat) : (s.setWindow o l).txB = s.txB := rfl
@[simp] theorem State.setWindow_argOrdRx (o l : Nat) : (s.setWindow o l).argOrdRx = s.argOrdRx := rfl
@[simp] theorem State.setWindow_rxStatus (o l : Nat) : (s.setWindow o l).rxStatus = s.rxStatus := rfl
@[simp] theorem State.setWindow_rxbLen (o l : Nat) : (s.setWindow o l).rxbLen = s.rxbLen := rfl
@[simp] theorem State.setWindow_rxOpc (o l : Nat) : (s.setWindow o l).rxOpc = s.rxOpc := rfl
@[simp] theorem State.setWindow_rxClass (o l : Nat) : (s.setWindow o l).rxClass = s.rxClass := rfl
@[simp] theorem State.setWindow_rxOrd (o l : Nat) : (s.setWindow o l).rxOrd = s.rxOrd := rfl
@[simp] theorem State.setWindow_rxA (o l : Nat) : (s.setWindow o l).rxA = s.rxA := rfl
@[simp] theorem State.setWindow_rxB (o l : Nat) : (s.setWindow o l).rxB = s.rxB := rfl
@[simp] theorem State.setWindow_rxOff (o l : Nat) : (s.setWindow o l).rxOff = BitVec.ofNat 16 o := rfl
@[simp] theorem State.setWindow_rxBlen (o l : Nat) : (s.setWindow o l).rxBlen = BitVec.ofNat 16 l := rfl
@[simp] theorem State.setWindow_txFlight (o l : Nat) : (s.setWindow o l).txFlight = s.txFlight := rfl
@[simp] theorem State.setWindow_rxFlight (o l : Nat) : (s.setWindow o l).rxFlight = s.rxFlight := rfl
@[simp] theorem State.setWindow_saltTx (o l : Nat) : (s.setWindow o l).saltTx = s.saltTx := rfl
@[simp] theorem State.setWindow_saltRx (o l : Nat) : (s.setWindow o l).saltRx = s.saltRx := rfl
@[simp] theorem State.setWindow_keyRaw (o l : Nat) : (s.setWindow o l).keyRaw = s.keyRaw := rfl
@[simp] theorem State.setWindow_skt (o l : Nat) : (s.setWindow o l).skt = s.skt := rfl
@[simp] theorem State.setWindow_pb (o l : Nat) : (s.setWindow o l).pb = s.pb := rfl
@[simp] theorem State.setWindow_txb (o l : Nat) : (s.setWindow o l).txb = s.txb := rfl
@[simp] theorem State.setWindow_rxb (o l : Nat) : (s.setWindow o l).rxb = s.rxb := rfl
@[simp] theorem State.setWindow_rxs (o l : Nat) : (s.setWindow o l).rxs = s.rxs := rfl
@[simp] theorem State.setWindow_txs (o l : Nat) : (s.setWindow o l).txs = s.txs := rfl
@[simp] theorem State.setWindow_txsHistory (o l : Nat) : (s.setWindow o l).txsHistory = s.txsHistory := rfl
@[simp] theorem State.setWindow_cfg (o l : Nat) : (s.setWindow o l).cfg = s.cfg := rfl
@[simp] theorem State.setWindow_moves (o l : Nat) : (s.setWindow o l).moves = s.moves := rfl
@[simp] theorem State.setWindow_tick (o l : Nat) : (s.setWindow o l).tick = s.tick := rfl
@[simp] theorem State.setWindow_phase (o l : Nat) : (s.setWindow o l).phase = s.phase := rfl
@[simp] theorem State.setWindow_hostPort (o l : Nat) : (s.setWindow o l).hostPort = s.hostPort := rfl

/-! ### unbind -/

@[simp] theorem State.unbind_issueStatus : (s.unbind).issueStatus = s.issueStatus := rfl
@[simp] theorem State.unbind_sess : (s.unbind).sess = s.sess := rfl
@[simp] theorem State.unbind_cipherValid : (s.unbind).cipherValid = s.cipherValid := rfl
@[simp] theorem State.unbind_sktValid : (s.unbind).sktValid = s.sktValid := rfl
@[simp] theorem State.unbind_ord : (s.unbind).ord = s.ord := rfl
@[simp] theorem State.unbind_lcg : (s.unbind).lcg = s.lcg := rfl
@[simp] theorem State.unbind_seed : (s.unbind).seed = s.seed := rfl
@[simp] theorem State.unbind_keyLen : (s.unbind).keyLen = s.keyLen := rfl
@[simp] theorem State.unbind_argSeed : (s.unbind).argSeed = s.argSeed := rfl
@[simp] theorem State.unbind_pbLen : (s.unbind).pbLen = s.pbLen := rfl
@[simp] theorem State.unbind_txOpc : (s.unbind).txOpc = s.txOpc := rfl
@[simp] theorem State.unbind_txbLen : (s.unbind).txbLen = s.txbLen := rfl
@[simp] theorem State.unbind_argOrdTx : (s.unbind).argOrdTx = s.argOrdTx := rfl
@[simp] theorem State.unbind_txStatus : (s.unbind).txStatus = s.txStatus := rfl
@[simp] theorem State.unbind_txClass : (s.unbind).txClass = s.txClass := rfl
@[simp] theorem State.unbind_txA : (s.unbind).txA = s.txA := rfl
@[simp] theorem State.unbind_txB : (s.unbind).txB = s.txB := rfl
@[simp] theorem State.unbind_argOrdRx : (s.unbind).argOrdRx = s.argOrdRx := rfl
@[simp] theorem State.unbind_rxStatus : (s.unbind).rxStatus = s.rxStatus := rfl
@[simp] theorem State.unbind_rxbLen : (s.unbind).rxbLen = s.rxbLen := rfl
@[simp] theorem State.unbind_rxOpc : (s.unbind).rxOpc = s.rxOpc := rfl
@[simp] theorem State.unbind_rxClass : (s.unbind).rxClass = s.rxClass := rfl
@[simp] theorem State.unbind_rxOrd : (s.unbind).rxOrd = s.rxOrd := rfl
@[simp] theorem State.unbind_rxA : (s.unbind).rxA = s.rxA := rfl
@[simp] theorem State.unbind_rxB : (s.unbind).rxB = s.rxB := rfl
@[simp] theorem State.unbind_rxOff : (s.unbind).rxOff = s.rxOff := rfl
@[simp] theorem State.unbind_rxBlen : (s.unbind).rxBlen = s.rxBlen := rfl
@[simp] theorem State.unbind_txFlight : (s.unbind).txFlight = s.txFlight := rfl
@[simp] theorem State.unbind_rxFlight : (s.unbind).rxFlight = s.rxFlight := rfl
@[simp] theorem State.unbind_saltTx : (s.unbind).saltTx = s.saltTx := rfl
@[simp] theorem State.unbind_saltRx : (s.unbind).saltRx = s.saltRx := rfl
@[simp] theorem State.unbind_keyRaw : (s.unbind).keyRaw = s.keyRaw := rfl
@[simp] theorem State.unbind_skt : (s.unbind).skt = s.skt := rfl
@[simp] theorem State.unbind_pb : (s.unbind).pb = s.pb := rfl
@[simp] theorem State.unbind_txb : (s.unbind).txb = s.txb := rfl
@[simp] theorem State.unbind_rxb : (s.unbind).rxb = s.rxb := rfl
@[simp] theorem State.unbind_rxs : (s.unbind).rxs = none := rfl
@[simp] theorem State.unbind_txs : (s.unbind).txs = none := rfl
@[simp] theorem State.unbind_txsHistory : (s.unbind).txsHistory = s.txsHistory ++ s.txs.toList := rfl
@[simp] theorem State.unbind_cfg : (s.unbind).cfg = s.cfg := rfl
@[simp] theorem State.unbind_moves : (s.unbind).moves = s.moves := rfl
@[simp] theorem State.unbind_tick : (s.unbind).tick = s.tick := rfl
@[simp] theorem State.unbind_phase : (s.unbind).phase = s.phase := rfl
@[simp] theorem State.unbind_hostPort : (s.unbind).hostPort = s.hostPort := rfl

/-! ### bindFresh -/

@[simp] theorem State.bindFresh_issueStatus : (s.bindFresh).issueStatus = s.issueStatus := rfl
@[simp] theorem State.bindFresh_sess : (s.bindFresh).sess = s.sess := rfl
@[simp] theorem State.bindFresh_cipherValid : (s.bindFresh).cipherValid = s.cipherValid := rfl
@[simp] theorem State.bindFresh_sktValid : (s.bindFresh).sktValid = s.sktValid := rfl
@[simp] theorem State.bindFresh_ord : (s.bindFresh).ord = s.ord := rfl
@[simp] theorem State.bindFresh_lcg : (s.bindFresh).lcg = s.lcg := rfl
@[simp] theorem State.bindFresh_seed : (s.bindFresh).seed = s.seed := rfl
@[simp] theorem State.bindFresh_keyLen : (s.bindFresh).keyLen = s.keyLen := rfl
@[simp] theorem State.bindFresh_argSeed : (s.bindFresh).argSeed = s.argSeed := rfl
@[simp] theorem State.bindFresh_pbLen : (s.bindFresh).pbLen = s.pbLen := rfl
@[simp] theorem State.bindFresh_txOpc : (s.bindFresh).txOpc = s.txOpc := rfl
@[simp] theorem State.bindFresh_txbLen : (s.bindFresh).txbLen = s.txbLen := rfl
@[simp] theorem State.bindFresh_argOrdTx : (s.bindFresh).argOrdTx = s.argOrdTx := rfl
@[simp] theorem State.bindFresh_txStatus : (s.bindFresh).txStatus = s.txStatus := rfl
@[simp] theorem State.bindFresh_txClass : (s.bindFresh).txClass = s.txClass := rfl
@[simp] theorem State.bindFresh_txA : (s.bindFresh).txA = s.txA := rfl
@[simp] theorem State.bindFresh_txB : (s.bindFresh).txB = s.txB := rfl
@[simp] theorem State.bindFresh_argOrdRx : (s.bindFresh).argOrdRx = s.argOrdRx := rfl
@[simp] theorem State.bindFresh_rxStatus : (s.bindFresh).rxStatus = s.rxStatus := rfl
@[simp] theorem State.bindFresh_rxbLen : (s.bindFresh).rxbLen = s.rxbLen := rfl
@[simp] theorem State.bindFresh_rxOpc : (s.bindFresh).rxOpc = s.rxOpc := rfl
@[simp] theorem State.bindFresh_rxClass : (s.bindFresh).rxClass = s.rxClass := rfl
@[simp] theorem State.bindFresh_rxOrd : (s.bindFresh).rxOrd = s.rxOrd := rfl
@[simp] theorem State.bindFresh_rxA : (s.bindFresh).rxA = s.rxA := rfl
@[simp] theorem State.bindFresh_rxB : (s.bindFresh).rxB = s.rxB := rfl
@[simp] theorem State.bindFresh_rxOff : (s.bindFresh).rxOff = s.rxOff := rfl
@[simp] theorem State.bindFresh_rxBlen : (s.bindFresh).rxBlen = s.rxBlen := rfl
@[simp] theorem State.bindFresh_txFlight : (s.bindFresh).txFlight = s.txFlight := rfl
@[simp] theorem State.bindFresh_rxFlight : (s.bindFresh).rxFlight = s.rxFlight := rfl
@[simp] theorem State.bindFresh_saltTx : (s.bindFresh).saltTx = s.saltTx := rfl
@[simp] theorem State.bindFresh_saltRx : (s.bindFresh).saltRx = s.saltRx := rfl
@[simp] theorem State.bindFresh_keyRaw : (s.bindFresh).keyRaw = s.keyRaw := rfl
@[simp] theorem State.bindFresh_skt : (s.bindFresh).skt = s.skt := rfl
@[simp] theorem State.bindFresh_pb : (s.bindFresh).pb = s.pb := rfl
@[simp] theorem State.bindFresh_txb : (s.bindFresh).txb = s.txb := rfl
@[simp] theorem State.bindFresh_rxb : (s.bindFresh).rxb = s.rxb := rfl
@[simp] theorem State.bindFresh_rxs : (s.bindFresh).rxs = some { unread := [], pos := 0, closed := false } := rfl
@[simp] theorem State.bindFresh_txs : (s.bindFresh).txs = some [] := rfl
@[simp] theorem State.bindFresh_txsHistory : (s.bindFresh).txsHistory = s.txsHistory ++ s.txs.toList := rfl
@[simp] theorem State.bindFresh_cfg : (s.bindFresh).cfg = s.cfg := rfl
@[simp] theorem State.bindFresh_moves : (s.bindFresh).moves = s.moves := rfl
@[simp] theorem State.bindFresh_tick : (s.bindFresh).tick = s.tick := rfl
@[simp] theorem State.bindFresh_phase : (s.bindFresh).phase = s.phase := rfl
@[simp] theorem State.bindFresh_hostPort : (s.bindFresh).hostPort = s.hostPort := rfl

/-! ### clearSession -/

@[simp] theorem State.clearSession_issueStatus : (s.clearSession).issueStatus = s.issueStatus := rfl
@[simp] theorem State.clearSession_sess : (s.clearSession).sess = s.sess := rfl
@[simp] theorem State.clearSession_cipherValid : (s.clearSession).cipherValid = false := rfl
@[simp] theorem State.clearSession_sktValid : (s.clearSession).sktValid = false := rfl
@[simp] theorem State.clearSession_ord : (s.clearSession).ord = ordInit := rfl
@[simp] theorem State.clearSession_lcg : (s.clearSession).lcg = lcgSeed := rfl
@[simp] theorem State.clearSession_seed : (s.clearSession).seed = 0#8 := rfl
@[simp] theorem State.clearSession_keyLen : (s.clearSession).keyLen = 0#8 := rfl
@[simp] theorem State.clearSession_argSeed : (s.clearSession).argSeed = s.argSeed := rfl
@[simp] theorem State.clearSession_pbLen : (s.clearSession).pbLen = s.pbLen := rfl
@[simp] theorem State.clearSession_txOpc : (s.clearSession).txOpc = s.txOpc := rfl
@[simp] theorem State.clearSession_txbLen : (s.clearSession).txbLen = s.txbLen := rfl
@[simp] theorem State.clearSession_argOrdTx : (s.clearSession).argOrdTx = s.argOrdTx := rfl
@[simp] theorem State.clearSession_txStatus : (s.clearSession).txStatus = .ok := rfl
@[simp] theorem State.clearSession_txClass : (s.clearSession).txClass = .none := rfl
@[simp] theorem State.clearSession_txA : (s.clearSession).txA = 0#16 := rfl
@[simp] theorem State.clearSession_txB : (s.clearSession).txB = 0#8 := rfl
@[simp] theorem State.clearSession_argOrdRx : (s.clearSession).argOrdRx = s.argOrdRx := rfl
@[simp] theorem State.clearSession_rxStatus : (s.clearSession).rxStatus = .ok := rfl
@[simp] theorem State.clearSession_rxbLen : (s.clearSession).rxbLen = 0#16 := rfl
@[simp] theorem State.clearSession_rxOpc : (s.clearSession).rxOpc = 0#8 := rfl
@[simp] theorem State.clearSession_rxClass : (s.clearSession).rxClass = .none := rfl
@[simp] theorem State.clearSession_rxOrd : (s.clearSession).rxOrd = 0#8 := rfl
@[simp] theorem State.clearSession_rxA : (s.clearSession).rxA = 0#16 := rfl
@[simp] theorem State.clearSession_rxB : (s.clearSession).rxB = 0#8 := rfl
@[simp] theorem State.clearSession_rxOff : (s.clearSession).rxOff = 0#16 := rfl
@[simp] theorem State.clearSession_rxBlen : (s.clearSession).rxBlen = 0#16 := rfl
@[simp] theorem State.clearSession_txFlight : (s.clearSession).txFlight = s.txFlight := rfl
@[simp] theorem State.clearSession_rxFlight : (s.clearSession).rxFlight = s.rxFlight := rfl
@[simp] theorem State.clearSession_saltTx : (s.clearSession).saltTx = s.saltTx := rfl
@[simp] theorem State.clearSession_saltRx : (s.clearSession).saltRx = s.saltRx := rfl
@[simp] theorem State.clearSession_keyRaw : (s.clearSession).keyRaw = s.keyRaw := rfl
@[simp] theorem State.clearSession_skt : (s.clearSession).skt = s.skt := rfl
@[simp] theorem State.clearSession_pb : (s.clearSession).pb = s.pb := rfl
@[simp] theorem State.clearSession_txb : (s.clearSession).txb = s.txb := rfl
@[simp] theorem State.clearSession_rxb : (s.clearSession).rxb = s.rxb := rfl
@[simp] theorem State.clearSession_rxs : (s.clearSession).rxs = s.rxs := rfl
@[simp] theorem State.clearSession_txs : (s.clearSession).txs = s.txs := rfl
@[simp] theorem State.clearSession_txsHistory : (s.clearSession).txsHistory = s.txsHistory := rfl
@[simp] theorem State.clearSession_cfg : (s.clearSession).cfg = s.cfg := rfl
@[simp] theorem State.clearSession_moves : (s.clearSession).moves = s.moves := rfl
@[simp] theorem State.clearSession_tick : (s.clearSession).tick = s.tick := rfl
@[simp] theorem State.clearSession_phase : (s.clearSession).phase = s.phase := rfl
@[simp] theorem State.clearSession_hostPort : (s.clearSession).hostPort = s.hostPort := rfl

/-! ### finish .tx -/

@[simp] theorem State.finish_tx_issueStatus (e : Status) : (s.finish .tx e).issueStatus = s.issueStatus := rfl
@[simp] theorem State.finish_tx_sess (e : Status) : (s.finish .tx e).sess = s.sess := rfl
@[simp] theorem State.finish_tx_cipherValid (e : Status) : (s.finish .tx e).cipherValid = s.cipherValid := rfl
@[simp] theorem State.finish_tx_sktValid (e : Status) : (s.finish .tx e).sktValid = s.sktValid := rfl
@[simp] theorem State.finish_tx_ord (e : Status) : (s.finish .tx e).ord = s.ord := rfl
@[simp] theorem State.finish_tx_lcg (e : Status) : (s.finish .tx e).lcg = s.lcg := rfl
@[simp] theorem State.finish_tx_seed (e : Status) : (s.finish .tx e).seed = s.seed := rfl
@[simp] theorem State.finish_tx_keyLen (e : Status) : (s.finish .tx e).keyLen = s.keyLen := rfl
@[simp] theorem State.finish_tx_argSeed (e : Status) : (s.finish .tx e).argSeed = s.argSeed := rfl
@[simp] theorem State.finish_tx_pbLen (e : Status) : (s.finish .tx e).pbLen = s.pbLen := rfl
@[simp] theorem State.finish_tx_txOpc (e : Status) : (s.finish .tx e).txOpc = s.txOpc := rfl
@[simp] theorem State.finish_tx_txbLen (e : Status) : (s.finish .tx e).txbLen = s.txbLen := rfl
@[simp] theorem State.finish_tx_argOrdTx (e : Status) : (s.finish .tx e).argOrdTx = s.argOrdTx := rfl
@[simp] theorem State.finish_tx_txStatus (e : Status) : (s.finish .tx e).txStatus = e := rfl
@[simp] theorem State.finish_tx_txClass (e : Status) : (s.finish .tx e).txClass = s.txClass := rfl
@[simp] theorem State.finish_tx_txA (e : Status) : (s.finish .tx e).txA = s.txA := rfl
@[simp] theorem State.finish_tx_txB (e : Status) : (s.finish .tx e).txB = s.txB := rfl
@[simp] theorem State.finish_tx_argOrdRx (e : Status) : (s.finish .tx e).argOrdRx = s.argOrdRx := rfl
@[simp] theorem State.finish_tx_rxStatus (e : Status) : (s.finish .tx e).rxStatus = s.rxStatus := rfl
@[simp] theorem State.finish_tx_rxbLen (e : Status) : (s.finish .tx e).rxbLen = s.rxbLen := rfl
@[simp] theorem State.finish_tx_rxOpc (e : Status) : (s.finish .tx e).rxOpc = s.rxOpc := rfl
@[simp] theorem State.finish_tx_rxClass (e : Status) : (s.finish .tx e).rxClass = s.rxClass := rfl
@[simp] theorem State.finish_tx_rxOrd (e : Status) : (s.finish .tx e).rxOrd = s.rxOrd := rfl
@[simp] theorem State.finish_tx_rxA (e : Status) : (s.finish .tx e).rxA = s.rxA := rfl
@[simp] theorem State.finish_tx_rxB (e : Status) : (s.finish .tx e).rxB = s.rxB := rfl
@[simp] theorem State.finish_tx_rxOff (e : Status) : (s.finish .tx e).rxOff = s.rxOff := rfl
@[simp] theorem State.finish_tx_rxBlen (e : Status) : (s.finish .tx e).rxBlen = s.rxBlen := rfl
@[simp] theorem State.finish_tx_txFlight (e : Status) : (s.finish .tx e).txFlight = none := rfl
@[simp] theorem State.finish_tx_rxFlight (e : Status) : (s.finish .tx e).rxFlight = s.rxFlight := rfl
@[simp] theorem State.finish_tx_saltTx (e : Status) : (s.finish .tx e).saltTx = s.saltTx := rfl
@[simp] theorem State.finish_tx_saltRx (e : Status) : (s.finish .tx e).saltRx = s.saltRx := rfl
@[simp] theorem State.finish_tx_keyRaw (e : Status) : (s.finish .tx e).keyRaw = s.keyRaw := rfl
@[simp] theorem State.finish_tx_skt (e : Status) : (s.finish .tx e).skt = s.skt := rfl
@[simp] theorem State.finish_tx_pb (e : Status) : (s.finish .tx e).pb = s.pb := rfl
@[simp] theorem State.finish_tx_txb (e : Status) : (s.finish .tx e).txb = s.txb := rfl
@[simp] theorem State.finish_tx_rxb (e : Status) : (s.finish .tx e).rxb = s.rxb := rfl
@[simp] theorem State.finish_tx_rxs (e : Status) : (s.finish .tx e).rxs = s.rxs := rfl
@[simp] theorem State.finish_tx_txs (e : Status) : (s.finish .tx e).txs = s.txs := rfl
@[simp] theorem State.finish_tx_txsHistory (e : Status) : (s.finish .tx e).txsHistory = s.txsHistory := rfl
@[simp] theorem State.finish_tx_cfg (e : Status) : (s.finish .tx e).cfg = s.cfg := rfl
@[simp] theorem State.finish_tx_moves (e : Status) : (s.finish .tx e).moves = s.moves := rfl
@[simp] theorem State.finish_tx_tick (e : Status) : (s.finish .tx e).tick = s.tick := rfl
@[simp] theorem State.finish_tx_phase (e : Status) : (s.finish .tx e).phase = s.phase := rfl
@[simp] theorem State.finish_tx_hostPort (e : Status) : (s.finish .tx e).hostPort = s.hostPort := rfl

/-! ### finish .rx -/

@[simp] theorem State.finish_rx_issueStatus (e : Status) : (s.finish .rx e).issueStatus = s.issueStatus := rfl
@[simp] theorem State.finish_rx_sess (e : Status) : (s.finish .rx e).sess = s.sess := rfl
@[simp] theorem State.finish_rx_cipherValid (e : Status) : (s.finish .rx e).cipherValid = s.cipherValid := rfl
@[simp] theorem State.finish_rx_sktValid (e : Status) : (s.finish .rx e).sktValid = s.sktValid := rfl
@[simp] theorem State.finish_rx_ord (e : Status) : (s.finish .rx e).ord = s.ord := rfl
@[simp] theorem State.finish_rx_lcg (e : Status) : (s.finish .rx e).lcg = s.lcg := rfl
@[simp] theorem State.finish_rx_seed (e : Status) : (s.finish .rx e).seed = s.seed := rfl
@[simp] theorem State.finish_rx_keyLen (e : Status) : (s.finish .rx e).keyLen = s.keyLen := rfl
@[simp] theorem State.finish_rx_argSeed (e : Status) : (s.finish .rx e).argSeed = s.argSeed := rfl
@[simp] theorem State.finish_rx_pbLen (e : Status) : (s.finish .rx e).pbLen = s.pbLen := rfl
@[simp] theorem State.finish_rx_txOpc (e : Status) : (s.finish .rx e).txOpc = s.txOpc := rfl
@[simp] theorem State.finish_rx_txbLen (e : Status) : (s.finish .rx e).txbLen = s.txbLen := rfl
@[simp] theorem State.finish_rx_argOrdTx (e : Status) : (s.finish .rx e).argOrdTx = s.argOrdTx := rfl
@[simp] theorem State.finish_rx_txStatus (e : Status) : (s.finish .rx e).txStatus = s.txStatus := rfl
@[simp] theorem State.finish_rx_txClass (e : Status) : (s.finish .rx e).txClass = s.txClass := rfl
@[simp] theorem State.finish_rx_txA (e : Status) : (s.finish .rx e).txA = s.txA := rfl
@[simp] theorem State.finish_rx_txB (e : Status) : (s.finish .rx e).txB = s.txB := rfl
@[simp] theorem State.finish_rx_argOrdRx (e : Status) : (s.finish .rx e).argOrdRx = s.argOrdRx := rfl
@[simp] theorem State.finish_rx_rxStatus (e : Status) : (s.finish .rx e).rxStatus = e := rfl
@[simp] theorem State.finish_rx_rxbLen (e : Status) : (s.finish .rx e).rxbLen = s.rxbLen := rfl
@[simp] theorem State.finish_rx_rxOpc (e : Status) : (s.finish .rx e).rxOpc = s.rxOpc := rfl
@[simp] theorem State.finish_rx_rxClass (e : Status) : (s.finish .rx e).rxClass = s.rxClass := rfl
@[simp] theorem State.finish_rx_rxOrd (e : Status) : (s.finish .rx e).rxOrd = s.rxOrd := rfl
@[simp] theorem State.finish_rx_rxA (e : Status) : (s.finish .rx e).rxA = s.rxA := rfl
@[simp] theorem State.finish_rx_rxB (e : Status) : (s.finish .rx e).rxB = s.rxB := rfl
@[simp] theorem State.finish_rx_rxOff (e : Status) : (s.finish .rx e).rxOff = s.rxOff := rfl
@[simp] theorem State.finish_rx_rxBlen (e : Status) : (s.finish .rx e).rxBlen = s.rxBlen := rfl
@[simp] theorem State.finish_rx_txFlight (e : Status) : (s.finish .rx e).txFlight = s.txFlight := rfl
@[simp] theorem State.finish_rx_rxFlight (e : Status) : (s.finish .rx e).rxFlight = none := rfl
@[simp] theorem State.finish_rx_saltTx (e : Status) : (s.finish .rx e).saltTx = s.saltTx := rfl
@[simp] theorem State.finish_rx_saltRx (e : Status) : (s.finish .rx e).saltRx = s.saltRx := rfl
@[simp] theorem State.finish_rx_keyRaw (e : Status) : (s.finish .rx e).keyRaw = s.keyRaw := rfl
@[simp] theorem State.finish_rx_skt (e : Status) : (s.finish .rx e).skt = s.skt := rfl
@[simp] theorem State.finish_rx_pb (e : Status) : (s.finish .rx e).pb = s.pb := rfl
@[simp] theorem State.finish_rx_txb (e : Status) : (s.finish .rx e).txb = s.txb := rfl
@[simp] theorem State.finish_rx_rxb (e : Status) : (s.finish .rx e).rxb = s.rxb := rfl
@[simp] theorem State.finish_rx_rxs (e : Status) : (s.finish .rx e).rxs = s.rxs := rfl
@[simp] theorem State.finish_rx_txs (e : Status) : (s.finish .rx e).txs = s.txs := rfl
@[simp] theorem State.finish_rx_txsHistory (e : Status) : (s.finish .rx e).txsHistory = s.txsHistory := rfl
@[simp] theorem State.finish_rx_cfg (e : Status) : (s.finish .rx e).cfg = s.cfg := rfl
@[simp] theorem State.finish_rx_moves (e : Status) : (s.finish .rx e).moves = s.moves := rfl
@[simp] theorem State.finish_rx_tick (e : Status) : (s.finish .rx e).tick = s.tick := rfl
@[simp] theorem State.finish_rx_phase (e : Status) : (s.finish .rx e).phase = s.phase := rfl
@[simp] theorem State.finish_rx_hostPort (e : Status) : (s.finish .rx e).hostPort = s.hostPort := rfl

/-! ### raise: the fields no error writes -/

@[simp] theorem State.raise_issueStatus (d : Dir) (e : Status) : (s.raise d e).issueStatus = s.issueStatus := by cases d <;> cases e <;> rfl
@[simp] theorem State.raise_cipherValid (d : Dir) (e : Status) : (s.raise d e).cipherValid = s.cipherValid := by cases d <;> cases e <;> rfl
@[simp] theorem State.raise_sktValid (d : Dir) (e : Status) : (s.raise d e).sktValid = s.sktValid := by cases d <;> cases e <;> rfl
@[simp] theorem State.raise_ord (d : Dir) (e : Status) : (s.raise d e).ord = s.ord := by cases d <;> cases e <;> rfl
@[simp] theorem State.raise_lcg (d : Dir) (e : Status) : (s.raise d e).lcg = s.lcg := by cases d <;> cases e <;> rfl
@[simp] theorem State.raise_seed (d : Dir) (e : Status) : (s.raise d e).seed = s.seed := by cases d <;> cases e <;> rfl
@[simp] theorem State.raise_keyLen (d : Dir) (e : Status) : (s.raise d e).keyLen = s.keyLen := by cases d <;> cases e <;> rfl
@[simp] theorem State.raise_argSeed (d : Dir) (e : Status) : (s.raise d e).argSeed = s.argSeed := by cases d <;> cases e <;> rfl
@[simp] theorem State.raise_pbLen (d : Dir) (e : Status) : (s.raise d e).pbLen = s.pbLen := by cases d <;> cases e <;> rfl
@[simp] theorem State.raise_txOpc (d : Dir) (e : Status) : (s.raise d e).txOpc = s.txOpc := by cases d <;> cases e <;> rfl
@[simp] theorem State.raise_txbLen (d : Dir) (e : Status) : (s.raise d e).txbLen = s.txbLen := by cases d <;> cases e <;> rfl
@[simp] theorem State.raise_argOrdTx (d : Dir) (e : Status) : (s.raise d e).argOrdTx = s.argOrdTx := by cases d <;> cases e <;> rfl
@[simp] theorem State.raise_txClass (d : Dir) (e : Status) : (s.raise d e).txClass = s.txClass := by cases d <;> cases e <;> rfl
@[simp] theorem State.raise_txA (d : Dir) (e : Status) : (s.raise d e).txA = s.txA := by cases d <;> cases e <;> rfl
@[simp] theorem State.raise_txB (d : Dir) (e : Status) : (s.raise d e).txB = s.txB := by cases d <;> cases e <;> rfl
@[simp] theorem State.raise_argOrdRx (d : Dir) (e : Status) : (s.raise d e).argOrdRx = s.argOrdRx := by cases d <;> cases e <;> rfl
@[simp] theorem State.raise_rxbLen (d : Dir) (e : Status) : (s.raise d e).rxbLen = s.rxbLen := by cases d <;> cases e <;> rfl
@[simp] theorem State.raise_rxOpc (d : Dir) (e : Status) : (s.raise d e).rxOpc = s.rxOpc := by cases d <;> cases e <;> rfl
@[simp] theorem State.raise_rxClass (d : Dir) (e : Status) : (s.raise d e).rxClass = s.rxClass := by cases d <;> cases e <;> rfl
@[simp] theorem State.raise_rxOrd (d : Dir) (e : Status) : (s.raise d e).rxOrd = s.rxOrd := by cases d <;> cases e <;> rfl
@[simp] theorem State.raise_rxA (d : Dir) (e : Status) : (s.raise d e).rxA = s.rxA := by cases d <;> cases e <;> rfl
@[simp] theorem State.raise_rxB (d : Dir) (e : Status) : (s.raise d e).rxB = s.rxB := by cases d <;> cases e <;> rfl
@[simp] theorem State.raise_rxOff (d : Dir) (e : Status) : (s.raise d e).rxOff = s.rxOff := by cases d <;> cases e <;> rfl
@[simp] theorem State.raise_rxBlen (d : Dir) (e : Status) : (s.raise d e).rxBlen = s.rxBlen := by cases d <;> cases e <;> rfl
@[simp] theorem State.raise_saltTx (d : Dir) (e : Status) : (s.raise d e).saltTx = s.saltTx := by cases d <;> cases e <;> rfl
@[simp] theorem State.raise_saltRx (d : Dir) (e : Status) : (s.raise d e).saltRx = s.saltRx := by cases d <;> cases e <;> rfl
@[simp] theorem State.raise_keyRaw (d : Dir) (e : Status) : (s.raise d e).keyRaw = s.keyRaw := by cases d <;> cases e <;> rfl
@[simp] theorem State.raise_skt (d : Dir) (e : Status) : (s.raise d e).skt = s.skt := by cases d <;> cases e <;> rfl
@[simp] theorem State.raise_pb (d : Dir) (e : Status) : (s.raise d e).pb = s.pb := by cases d <;> cases e <;> rfl
@[simp] theorem State.raise_txb (d : Dir) (e : Status) : (s.raise d e).txb = s.txb := by cases d <;> cases e <;> rfl
@[simp] theorem State.raise_rxb (d : Dir) (e : Status) : (s.raise d e).rxb = s.rxb := by cases d <;> cases e <;> rfl
@[simp] theorem State.raise_rxs (d : Dir) (e : Status) : (s.raise d e).rxs = s.rxs := by cases d <;> cases e <;> rfl
@[simp] theorem State.raise_txs (d : Dir) (e : Status) : (s.raise d e).txs = s.txs := by cases d <;> cases e <;> rfl
@[simp] theorem State.raise_txsHistory (d : Dir) (e : Status) : (s.raise d e).txsHistory = s.txsHistory := by cases d <;> cases e <;> rfl
@[simp] theorem State.raise_cfg (d : Dir) (e : Status) : (s.raise d e).cfg = s.cfg := by cases d <;> cases e <;> rfl
@[simp] theorem State.raise_moves (d : Dir) (e : Status) : (s.raise d e).moves = s.moves := by cases d <;> cases e <;> rfl
@[simp] theorem State.raise_tick (d : Dir) (e : Status) : (s.raise d e).tick = s.tick := by cases d <;> cases e <;> rfl
@[simp] theorem State.raise_phase (d : Dir) (e : Status) : (s.raise d e).phase = s.phase := by cases d <;> cases e <;> rfl
@[simp] theorem State.raise_hostPort (d : Dir) (e : Status) : (s.raise d e).hostPort = s.hostPort := by cases d <;> cases e <;> rfl

/-- An error makes the session DEAD exactly when it is fatal (60_exceptions R340, R341). -/
theorem State.raise_sess (d : Dir) (e : Status) : (s.raise d e).sess = if e.fatal then .dead else s.sess := by
  cases d <;> cases e <;> rfl

@[simp] theorem State.raise_tx_txStatus (e : Status) : (s.raise .tx e).txStatus = e := by cases e <;> rfl
@[simp] theorem State.raise_tx_txFlight (e : Status) : (s.raise .tx e).txFlight = none := by cases e <;> rfl
@[simp] theorem State.raise_tx_rxStatus (e : Status) : (s.raise .tx e).rxStatus = s.rxStatus := by cases e <;> rfl
@[simp] theorem State.raise_tx_rxFlight (e : Status) : (s.raise .tx e).rxFlight = s.rxFlight := by cases e <;> rfl
@[simp] theorem State.raise_rx_rxStatus (e : Status) : (s.raise .rx e).rxStatus = e := by cases e <;> rfl
@[simp] theorem State.raise_rx_rxFlight (e : Status) : (s.raise .rx e).rxFlight = none := by cases e <;> rfl
@[simp] theorem State.raise_rx_txStatus (e : Status) : (s.raise .rx e).txStatus = s.txStatus := by cases e <;> rfl
@[simp] theorem State.raise_rx_txFlight (e : Status) : (s.raise .rx e).txFlight = s.txFlight := by cases e <;> rfl

end Sys2Proof.Machine
end

