-- ==== Sys2Proof/Laws/Memory.lean ====
section
/-! SUPPORT. Memory: what a store leaves at each index, that every memory operation keeps the canonical form, and the
length and bytes of a read. -/

namespace Sys2Proof.Machine

theorem byte?_append (m k : Memory) (j : Nat) :
    Memory.byte? (m ++ k) j = (m.byte? j).or (k.byte? j) := by
  simp [Memory.byte?, List.find?_append, Option.map_or]

theorem byte?_filter (p : Nat → Bool) (m : Memory) (j : Nat) :
    Memory.byte? (m.filter fun c => p c.1) j = if p j then m.byte? j else none := by
  induction m with
  | nil => simp [Memory.byte?]
  | cons c m ih =>
    simp only [Memory.byte?, List.filter_cons, List.find?_cons] at ih ⊢
    by_cases hc : c.1 = j
    · subst hc
      by_cases hp : p c.1 = true
      · simp [hp]
      · simp only [Bool.not_eq_true] at hp
        simpa [hp] using ih
    · have hb : (c.1 == j) = false := by simpa using hc
      by_cases hp : p c.1 = true
      · simpa [hp, hb] using ih
      · simp only [Bool.not_eq_true] at hp
        simpa [hp, hb] using ih

theorem byte?_cellsAt (i : Nat) (bs : List Byte) (j : Nat) :
    Memory.byte? (cellsAt i bs) j = if i ≤ j then bs[j - i]? else none := by
  induction bs generalizing i with
  | nil => simp [cellsAt, Memory.byte?]
  | cons b bs ih =>
    by_cases h : i = j
    · subst h; simp [cellsAt, Memory.byte?]
    · have step : Memory.byte? (cellsAt i (b :: bs)) j = Memory.byte? (cellsAt (i + 1) bs) j := by
        simp [cellsAt, Memory.byte?, h]
      rw [step, ih]
      by_cases hj : i ≤ j
      · have : j - i = (j - (i + 1)) + 1 := by omega
        simp [this, show i + 1 ≤ j by omega, hj]
      · simp [hj, show ¬ i + 1 ≤ j by omega]

/-- What an index holds after a store: the stored byte inside the stored range, what it held before elsewhere. -/
theorem Memory.byte?_store (m : Memory) (i : Nat) (bs : List Byte) (j : Nat) :
    (m.store i bs).byte? j = if i ≤ j ∧ j < i + bs.length then bs[j - i]? else m.byte? j := by
  rw [Memory.store, byte?_append, byte?_append,
    byte?_filter (fun a => decide (a < i)), byte?_filter (fun a => decide (i + bs.length ≤ a)), byte?_cellsAt]
  by_cases h1 : j < i
  · simp [h1, show ¬ i ≤ j by omega, show ¬ i + bs.length ≤ j by omega]
  · by_cases h2 : j < i + bs.length
    · have : bs[j - i]? = some bs[j - i] := List.getElem?_eq_getElem (by omega)
      simp [h1, h2, show i ≤ j by omega, this]
    · have : bs[j - i]? = none := List.getElem?_eq_none (by omega)
      simp [h1, h2, show i ≤ j by omega, show i + bs.length ≤ j by omega, this]

theorem cellsAt_range (i : Nat) (bs : List Byte) :
    ∀ c ∈ cellsAt i bs, i ≤ c.1 ∧ c.1 < i + bs.length := by
  induction bs generalizing i with
  | nil => simp [cellsAt]
  | cons b bs ih =>
    intro c hc
    simp only [cellsAt, List.mem_cons] at hc
    rcases hc with rfl | hc
    · simp
    · have := ih (i + 1) c hc
      simp only [List.length_cons]; omega

theorem cellsAt_wf (i : Nat) (bs : List Byte) : Memory.wf (cellsAt i bs) := by
  induction bs generalizing i with
  | nil => simp [cellsAt, Memory.wf]
  | cons b bs ih =>
    refine List.pairwise_cons.2 ⟨fun c hc => ?_, ih (i + 1)⟩
    have := cellsAt_range (i + 1) bs c hc
    show i < c.1
    omega

/-- A store keeps the canonical form. -/
theorem Memory.store_wf {m : Memory} (h : m.wf) (i : Nat) (bs : List Byte) : (m.store i bs).wf := by
  unfold Memory.store Memory.wf
  refine List.pairwise_append.2 ⟨List.pairwise_append.2 ⟨h.filter _, cellsAt_wf i bs, ?_⟩, h.filter _, ?_⟩
  · intro c hc d hd
    have := cellsAt_range i bs d hd
    have hc := (List.mem_filter.1 hc).2
    simp only [decide_eq_true_eq] at hc
    omega
  · intro c hc d hd
    have hd := (List.mem_filter.1 hd).2
    simp only [decide_eq_true_eq] at hd
    rcases List.mem_append.1 hc with hc | hc
    · have hc := (List.mem_filter.1 hc).2
      simp only [decide_eq_true_eq] at hc
      omega
    · have := cellsAt_range i bs c hc
      omega

/-- A store within a size keeps the indices within it. -/
theorem Memory.store_bounded {m : Memory} {n : Nat} (h : ∀ c ∈ m, c.1 < n) (i : Nat) (bs : List Byte)
    (hi : i + bs.length ≤ n) : ∀ c ∈ m.store i bs, c.1 < n := by
  intro c hc
  simp only [Memory.store, List.mem_append, List.mem_filter] at hc
  rcases hc with (hc | hc) | hc
  · exact h c hc.1
  · have := cellsAt_range i bs c hc
    omega
  · exact h c hc.1

/-- A store at index 0 from the front: every index below the length is held afterwards. -/
theorem Memory.store_held (m : Memory) (i : Nat) (bs : List Byte) (j : Nat) (hj : i ≤ j) (hl : j < i + bs.length) :
    (m.store i bs).byte? j = some (bs[j - i]'(by omega)) := by
  rw [Memory.byte?_store, if_pos ⟨hj, hl⟩, List.getElem?_eq_getElem]

/-- An index that is held stays held after any store. -/
theorem Memory.store_isSome {m : Memory} (i : Nat) (bs : List Byte) (j : Nat) (h : (m.byte? j).isSome) :
    ((m.store i bs).byte? j).isSome := by
  rw [Memory.byte?_store]
  split
  · rename_i hj
    rw [List.getElem?_eq_getElem (by omega)]; rfl
  · exact h

@[simp] theorem State.memRead_length (s : State) (sp : Space) (i n : Nat) : (s.memRead sp i n).length = n := by
  simp [State.memRead]

@[simp] theorem State.memRead_getElem (s : State) (sp : Space) (i n k : Nat) (h : k < (s.memRead sp i n).length) :
    (s.memRead sp i n)[k] = s.byteAt sp (i + k) := by
  simp [State.memRead]

theorem State.memRead_zero (s : State) (sp : Space) (i : Nat) : s.memRead sp i 0 = [] := rfl

/-- Where a byte is held the engine reads it. -/
theorem State.byteAt_of_byte? {s : State} {sp : Space} {i : Nat} {b : Byte} (h : (s.ram sp).byte? i = some b) :
    s.byteAt sp i = b := by
  simp [State.byteAt, h]

/-- Memories stay canonical and within their spaces where each is unchanged, stored to within its space, or dropped. -/
theorem State.memoriesOk_of_stores {s t : State} (h : s.memoriesOk)
    (ht : ∀ sp, t.ram sp = s.ram sp ∨ t.ram sp = [] ∨
      ∃ i bs, i + bs.length ≤ sp.size ∧ t.ram sp = (s.ram sp).store i bs) : t.memoriesOk := by
  intro sp
  rcases ht sp with hsp | hsp | ⟨i, bs, hi, hsp⟩ <;> rw [hsp]
  · exact h sp
  · simp [Memory.wf]
  · exact ⟨Memory.store_wf (h sp).1 i bs, Memory.store_bounded (h sp).2 i bs hi⟩

/-- Memories stay canonical where none is written. -/
theorem State.memoriesOk_congr {s t : State} (h : s.memoriesOk) (ht : ∀ sp, t.ram sp = s.ram sp) : t.memoriesOk :=
  State.memoriesOk_of_stores h fun sp => .inl (ht sp)

/-- The host's write keeps every memory canonical and within its space. -/
theorem State.hostWrite_memoriesOk {s t : State} {sp : Space} {i : Nat} {bs : List Byte} (h : s.memoriesOk)
    (ht : s.hostWrite sp i bs = .next t) : t.memoriesOk := by
  unfold State.hostWrite at ht
  split at ht
  · cases ht
  · rename_i hsz
    split at ht
    · cases ht
    · refine State.memoriesOk_of_stores h fun sp' => ?_
      cases sp <;> injection ht with ht <;> subst ht <;> cases sp' <;>
        first
        | exact .inl rfl
        | exact .inr (.inr ⟨i, bs, by simpa using hsz, rfl⟩)

/-- Reset's memories are canonical. -/
theorem State.reset_memories_empty (sp : Space) (h : sp ≠ .encTx) (h' : sp ≠ .encRx) : State.reset.ram sp = [] := by
  cases sp <;> first | rfl | contradiction

/-- The ROMs are canonical and have 256 entries. -/
theorem rom_memory_ok (v : Vector Cls 256) :
    Memory.wf (cellsAt 0 (v.toList.map Cls.code)) ∧ ∀ c ∈ cellsAt 0 (v.toList.map Cls.code), c.1 < 256 := by
  refine ⟨cellsAt_wf _ _, fun c hc => ?_⟩
  have := cellsAt_range _ _ c hc
  simpa using this

end Sys2Proof.Machine
end

