-- ==== Sys2Proof/Laws/Ops.lean ====
section
/-! SUPPORT. The shared operations: for each one, once, everything it can do. A later proof cites these and unfolds
none of them. -/

namespace Sys2Proof.Machine

variable {s : State}

/-! ### Errors -/

/-- A fatal error (60_exceptions R340). -/
theorem State.raise_tx_fatal (e : Status) (h : e.fatal = true) :
    s.raise .tx e = { s with txStatus := e, txFlight := none, sess := .dead } := by
  simp [State.raise, State.finish, h]

theorem State.raise_rx_fatal (e : Status) (h : e.fatal = true) :
    s.raise .rx e = { s with rxStatus := e, rxFlight := none, sess := .dead } := by
  simp [State.raise, State.finish, h]

/-- A refusal (60_exceptions R341). -/
theorem State.raise_tx_refusal (e : Status) (h : e.fatal = false) :
    s.raise .tx e = { s with txStatus := e, txFlight := none } := by
  simp [State.raise, State.finish, h]

theorem State.raise_rx_refusal (e : Status) (h : e.fatal = false) :
    s.raise .rx e = { s with rxStatus := e, rxFlight := none } := by
  simp [State.raise, State.finish, h]

/-! ### Issue -/

theorem txBusy_eq_false : s.txBusy = false ↔ s.txFlight = none := by simp [State.txBusy]
theorem rxBusy_eq_false : s.rxBusy = false ↔ s.rxFlight = none := by simp [State.rxBusy]
theorem txBusy_eq_true : s.txBusy = true ↔ s.txFlight ≠ none := by simp [State.txBusy, Option.isSome_iff_ne_none]
theorem rxBusy_eq_true : s.rxBusy = true ↔ s.rxFlight ≠ none := by simp [State.rxBusy, Option.isSome_iff_ne_none]

theorem State.ifIdle_idle (run : State) (h : s.txFlight = none) (h' : s.rxFlight = none) : s.ifIdle run = run := by
  simp [State.ifIdle, State.txBusy, State.rxBusy, h, h']

theorem State.ifIdle_busy (run : State) (h : s.txBusy = true ∨ s.rxBusy = true) :
    s.ifIdle run = s.setIssue .busy := by
  simp [State.ifIdle, h]

/-- A system command that needs idle directions runs or is Busy. -/
theorem State.ifIdle_cases (run : State) :
    (s.txFlight = none ∧ s.rxFlight = none ∧ s.ifIdle run = run) ∨ s.ifIdle run = s.setIssue .busy := by
  by_cases h : s.txBusy = true ∨ s.rxBusy = true
  · exact .inr (State.ifIdle_busy run h)
  · simp only [not_or, Bool.not_eq_true, txBusy_eq_false, rxBusy_eq_false] at h
    exact .inl ⟨h.1, h.2, State.ifIdle_idle run h.1 h.2⟩

theorem State.ifLive_live (run : State) (h : s.sess = .live) : s.ifLive run = run := by simp [State.ifLive, h]
theorem State.ifLive_none (run : State) (h : s.sess = .none) : s.ifLive run = s.setIssue .noSession := by
  simp [State.ifLive, h]
theorem State.ifLive_dead (run : State) (h : s.sess = .dead) : s.ifLive run = s.setIssue .sessionDead := by
  simp [State.ifLive, h]

/-- What needs a session runs in a LIVE one; else an issue refusal. -/
theorem State.ifLive_cases (run : State) :
    (s.sess = .live ∧ s.ifLive run = run) ∨ ∃ e, s.ifLive run = s.setIssue e := by
  cases h : s.sess
  · exact .inr ⟨_, State.ifLive_none run h⟩
  · exact .inl ⟨rfl, State.ifLive_live run h⟩
  · exact .inr ⟨_, State.ifLive_dead run h⟩

/-- The issue of a TX command: in flight with its operands latched, or an issue refusal. -/
theorem State.issueTx_cases (c : TxCommand) :
    (s.txFlight = none ∧ s.sess = .live ∧ s.txbLen.toNat ≤ txbCap ∧
      s.issueTx c = { s with issueStatus := .ok, txFlight := some (s.latchTx c) }) ∨
    ∃ e, s.issueTx c = s.setIssue e := by
  unfold State.issueTx
  split
  · exact .inr ⟨_, rfl⟩
  · rename_i hb
    rcases State.ifLive_cases (s := s)
      (if txbCap < s.txbLen.toNat then s.setIssue .illegalOperand
        else { s.setIssue .ok with txFlight := some (s.latchTx c) }) with ⟨hl, h⟩ | ⟨e, h⟩
    · rw [h]
      split
      · exact .inr ⟨_, rfl⟩
      · rename_i hn
        exact .inl ⟨by simpa [State.txBusy] using hb, hl, by omega, rfl⟩
    · exact .inr ⟨e, h⟩

/-- The issue of an RX command: in flight with its operands latched, or an issue refusal. -/
theorem State.issueRx_cases (c : RxCommand) :
    (s.rxFlight = none ∧ s.sess = .live ∧
      s.issueRx c = { s with issueStatus := .ok, rxFlight := some (s.latchRx c) }) ∨
    ∃ e, s.issueRx c = s.setIssue e := by
  unfold State.issueRx
  split
  · exact .inr ⟨_, rfl⟩
  · rename_i hb
    rcases State.ifLive_cases (s := s) { s.setIssue .ok with rxFlight := some (s.latchRx c) } with ⟨hl, h⟩ | ⟨e, h⟩
    · exact .inl ⟨by simpa [State.rxBusy] using hb, hl, h⟩
    · exact .inr ⟨e, h⟩

/-! ### Keys -/

/-- The raw key a command uses: KEY_RAW below KEY_LEN, with CIPHER_VALID. -/
theorem State.rawKey_eq_some {key : Key} :
    s.rawKey = some key ↔ s.cipherValid = true ∧ key.bytes = s.memRead .keyRaw 0 s.keyLen.toNat := by
  simp [State.rawKey, Key.ofBytes?_eq_some]

/-- No raw key: no cipher, or a length of 0. -/
theorem State.rawKey_eq_none : s.rawKey = none ↔ s.cipherValid = false ∨ s.keyLen = 0#8 := by
  have h : s.memRead .keyRaw 0 s.keyLen.toNat = [] ↔ s.keyLen = 0#8 := by
    rw [← List.length_eq_zero_iff, State.memRead_length, ← BitVec.toNat_inj]; simp
  cases hc : s.cipherValid <;> simp [State.rawKey, hc, Key.ofBytes?_eq_none, h]

/-- The key of an encrypted class. -/
theorem State.effectiveKey_eq_some {cls : Cls} {a : Half} {b : Byte} {key : Key} :
    s.effectiveKey cls a b = some key ↔ cls ≠ .none ∧ s.cipherValid = true ∧ (cls = .md5 → s.sktValid = true) ∧
      key.bytes = if cls = .normal then s.memRead .keyRaw 0 s.keyLen.toNat else key9 (s.byteAt .skt) a b := by
  cases cls <;> simp [State.effectiveKey, State.rawKey_eq_some, State.sampledKey, Key.ofBytes?_eq_some, and_assoc]

/-- The key checks of an encrypted class (46_send_recv R271, R281). -/
theorem State.effectiveKey_eq_none {cls : Cls} (a : Half) (b : Byte) (h : cls ≠ .none) :
    s.effectiveKey cls a b = none ↔
      ¬ (s.cipherValid = true ∧ (cls = .normal → s.keyLen ≠ 0#8) ∧ (cls = .md5 → s.sktValid = true)) := by
  have h9 : key9 (s.byteAt .skt) a b ≠ [] := fun e => by simpa using congrArg List.length e
  cases cls
  · exact absurd rfl h
  · cases hc : s.cipherValid <;> simp [State.effectiveKey, State.rawKey_eq_none, hc]
  · cases hc : s.cipherValid <;> simp [State.effectiveKey, State.sampledKey, hc, Key.ofBytes?_eq_none, h9]

/-! ### TX -/

/-- `frame_write` on a payload that fits. -/
theorem State.frameWrite_ok (p : List Byte) (h : p.length ≤ 65535) :
    s.frameWrite p = { s with txs := s.txs.map (· ++ frameBytes p), txStatus := .ok, txFlight := none } := by
  simp [State.frameWrite, maxPayload, Nat.not_lt.2 h, State.txAppend, State.finish]

/-- `frame_write` on a payload that does not (40_frame_codec R136). -/
theorem State.frameWrite_tooLarge (p : List Byte) (h : 65535 < p.length) :
    s.frameWrite p = { s with txStatus := .payloadTooLarge, txFlight := none, sess := .dead } := by
  rw [State.frameWrite, if_pos (show maxPayload < p.length from h)]
  exact State.raise_tx_fatal .payloadTooLarge rfl

/-- An encrypted packet with an empty body fits a frame, whatever the OPEN parameters (46_send_recv R276). -/
theorem State.overhead_le (cls : Cls) : s.overhead cls ≤ maxPayload := by
  have := s.cfg.fragBound
  cases cls <;> simp only [State.overhead, Config.nfrag, maxPayload] <;> omega

/-- Everything sending an encrypted packet does (46_send_recv R272, R273). -/
theorem State.sendPacket_cases (cls : Cls) (ord : Byte) (cbody : List Byte) (a : Half) (b : Byte) (p : List Byte) :
    (maxPayload < p.length ∧ s.sendPacket cls ord cbody a b p = { s with
      txClass := cls, txStatus := .payloadTooLarge, txFlight := none, sess := .dead }) ∨
    (p.length ≤ maxPayload ∧ s.sendPacket cls ord cbody a b p = { s with
      txClass := cls, txb := s.txb.store 0 cbody, lcg := lcgNext s.lcg, txA := a, txB := b, ord := ord + 1#8
      txs := s.txs.map (· ++ frameBytes p), txStatus := .ok, txFlight := none }) := by
  by_cases h : maxPayload < p.length
  · exact .inl ⟨h, by rw [State.sendPacket, if_pos h]; exact State.raise_tx_fatal .payloadTooLarge rfl⟩
  · refine .inr ⟨by omega, ?_⟩
    rw [State.sendPacket, if_neg h, State.sendEncrypted, State.frameWrite_ok _ (by simpa [maxPayload] using h)]

/-- Everything the completion of SEND does (46_send_recv R270). -/
theorem State.sendComplete_cases (f : TxFlight) :
    let cls := classify s.cfg .tx f.opc
    let key? := s.effectiveKey cls (outboundA (lcgNext s.lcg)) bTx
    (cls = .none ∧
      s.sendComplete f = { s with txClass := .none }.frameWrite (f.opc :: s.memRead .txb 0 f.len.toNat)) ∨
    (cls ≠ .none ∧ key? = none ∧
      s.sendComplete f = { s with txClass := cls, txStatus := .noKeyMaterial, txFlight := none }) ∨
    (cls ≠ .none ∧ ∃ key, key? = some key ∧
      ((maxPayload < s.overhead cls + f.len.toNat ∧
        s.sendComplete f = { s with txClass := cls, txStatus := .payloadTooLarge, txFlight := none, sess := .dead }) ∨
      (s.overhead cls + f.len.toNat ≤ maxPayload ∧
        let cbody := crypt (s.memRead .txb 0 f.len.toNat) s.ord key (s.salt .tx)
        s.sendComplete f = { s with
          txClass := cls, txb := s.txb.store 0 cbody, lcg := lcgNext s.lcg, txA := outboundA (lcgNext s.lcg)
          txB := bTx, ord := s.ord + 1#8, txStatus := .ok, txFlight := none
          txs := s.txs.map (· ++ frameBytes
            (s.encryptedPayload cls f.opc s.ord cbody (outboundA (lcgNext s.lcg)) bTx)) }))) := by
  intro cls key?
  by_cases h0 : cls = .none
  · exact .inl ⟨h0, by simp [State.sendComplete, cls, h0]⟩
  refine .inr ?_
  cases hk : key? with
  | none =>
    refine .inl ⟨h0, rfl, ?_⟩
    simp only [State.sendComplete, if_neg (show classify s.cfg .tx f.opc ≠ .none from h0)]
    rw [show s.effectiveKey (classify s.cfg .tx f.opc) (outboundA (lcgNext s.lcg)) bTx = none from hk]
    exact State.raise_tx_refusal .noKeyMaterial rfl
  | some key =>
    refine .inr ⟨h0, key, rfl, ?_⟩
    simp only [State.sendComplete, if_neg (show classify s.cfg .tx f.opc ≠ .none from h0)]
    rw [show s.effectiveKey (classify s.cfg .tx f.opc) (outboundA (lcgNext s.lcg)) bTx = some key from hk]
    by_cases h2 : maxPayload < s.overhead cls + f.len.toNat
    · refine .inl ⟨h2, ?_⟩
      simp only [if_pos (show maxPayload < s.overhead (classify s.cfg .tx f.opc) + f.len.toNat from h2)]
      exact State.raise_tx_fatal .payloadTooLarge rfl
    · refine .inr ⟨by omega, ?_⟩
      simp only [if_neg (show ¬ maxPayload < s.overhead (classify s.cfg .tx f.opc) + f.len.toNat from h2)]
      rw [State.sendEncrypted, State.frameWrite_ok]
      have : ∀ cbody : List Byte, cbody.length = f.len.toNat →
          (s.encryptedPayload cls f.opc s.ord cbody (outboundA (lcgNext s.lcg)) bTx).length =
            s.overhead cls + f.len.toNat := by
        intro cbody h
        cases hc : cls <;> simp [State.encryptedPayload, State.overhead, encode, h, hashFrag, Config.nfrag] <;> omega
      rw [this _ (by simp)]
      simp only [maxPayload] at h2
      omega

/-- Everything the completion of CRYPT.TX does (42_crypt R175). -/
theorem State.cryptTxComplete_cases (f : TxFlight) :
    (s.rawKey = none ∧ s.cryptTxComplete f = { s with txStatus := .noKeyMaterial, txFlight := none }) ∨
    (∃ key, s.rawKey = some key ∧ s.cryptTxComplete f = { s with
      txb := s.txb.store 0 (crypt (s.memRead .txb 0 f.len.toNat) f.ord key (s.salt .tx))
      txStatus := .ok, txFlight := none }) := by
  cases h : s.rawKey with
  | none => exact .inl ⟨rfl, by rw [State.cryptTxComplete, h]; exact State.raise_tx_refusal .noKeyMaterial rfl⟩
  | some key => exact .inr ⟨key, rfl, by simp [State.cryptTxComplete, h, State.finish]⟩

/-! ### RX -/

theorem RxStream.frameRead_payload {q : RxStream} {p rest : List Byte} (h : decodeFrame q.unread = .ok (p, rest)) :
    q.frameRead = .payload p := by
  simp [RxStream.frameRead, h]

theorem RxStream.frameRead_badMagic {q : RxStream} {b : Byte} (h : decodeFrame q.unread = .error (.badMagic b)) :
    q.frameRead = .error .invalidFraming 3 := by
  simp [RxStream.frameRead, h]

/-- A payload is found exactly where the decoder finds a frame. -/
theorem RxStream.frameRead_eq_payload {q : RxStream} {p : List Byte} (h : q.frameRead = .payload p) :
    ∃ rest, decodeFrame q.unread = .ok (p, rest) := by
  unfold RxStream.frameRead at h
  split at h
  · rename_i p' rest hd
    injection h with h; subst h
    exact ⟨rest, hd⟩
  · cases h
  · split at h
    · split at h <;> cases h
    · cases h

/-- The errors of a read (40_frame_codec R133, R134): each is fatal, and how many bytes it takes. -/
theorem RxStream.frameRead_eq_error {q : RxStream} {e : Status} {n : Nat} (h : q.frameRead = .error e n) :
    e.fatal = true ∧ n ≤ q.unread.length ∧
    ((e = .invalidFraming ∧ n = 3) ∨ (e = .transportClosed ∧ n = 0 ∧ q.closed = true ∧ q.unread = []) ∨
      (e = .truncatedFrame ∧ n = q.unread.length ∧ q.closed = true ∧ q.unread ≠ [])) := by
  unfold RxStream.frameRead at h
  split at h
  · cases h
  · rename_i b hd
    obtain ⟨rfl, rfl⟩ : _ ∧ _ := by simpa using h
    refine ⟨rfl, ?_, .inl ⟨rfl, rfl⟩⟩
    by_contra hl
    rw [decodeFrame_headerShort _ (by omega)] at hd
    cases hd
  · split at h
    · rename_i hc
      split at h
      · rename_i hu
        obtain ⟨rfl, rfl⟩ : _ ∧ _ := by simpa using h
        exact ⟨rfl, by omega, .inr (.inl ⟨rfl, rfl, hc, hu⟩)⟩
      · rename_i hu
        obtain ⟨rfl, rfl⟩ : _ ∧ _ := by simpa using h
        exact ⟨rfl, le_refl _, .inr (.inr ⟨rfl, rfl, hc, hu⟩)⟩
    · cases h

/-- A hold needs an open stream (40_frame_codec R132). -/
theorem RxStream.frameRead_eq_hold {q : RxStream} (h : q.frameRead = .hold) :
    q.closed = false ∧ ∃ e, decodeFrame q.unread = .error e := by
  unfold RxStream.frameRead at h
  split at h
  · cases h
  · cases h
  · rename_i e _ hd
    split at h
    · split at h <;> cases h
    · rename_i hc
      exact ⟨by simpa using hc, e, hd⟩

/-- Everything FRAME.RD and RECV do before they look at a payload (40_frame_codec R130). -/
theorem State.frameReadThen_cases (k : State → List Byte → State) :
    ((∀ q, s.rxs = some q → q.frameRead = .hold) ∧ s.frameReadThen k = s) ∨
    (∃ q p rest, s.rxs = some q ∧ decodeFrame q.unread = .ok (p, rest) ∧
      s.frameReadThen k = k (s.takeFrame p) p) ∨
    (∃ q e n, s.rxs = some q ∧ q.frameRead = .error e n ∧
      s.frameReadThen k = { s with
        rxs := some (q.take n), rxStatus := e, rxFlight := none, sess := .dead }) := by
  unfold State.frameReadThen
  cases hq : s.rxs with
  | none => exact .inl ⟨by simp, rfl⟩
  | some q =>
    cases hr : q.frameRead with
    | hold => exact .inl ⟨by simp [hr], by simp [hr]⟩
    | payload p =>
      obtain ⟨rest, hd⟩ := RxStream.frameRead_eq_payload hr
      exact .inr (.inl ⟨q, p, rest, rfl, hd, by simp [hr]⟩)
    | error e n =>
      refine .inr (.inr ⟨q, e, n, rfl, hr, ?_⟩)
      simp only [Option.map_some, hr]
      rw [State.raise_rx_fatal _ (RxStream.frameRead_eq_error hr).1]
      simp [State.rxTake, hq]

/-- What FRAME.RD does with a payload (40_frame_codec R131). -/
theorem State.deliverRaw_eq (p : List Byte) :
    s.deliverRaw p = { s with
      rxb := s.rxb.store 0 p, rxbLen := BitVec.ofNat 16 p.length, rxOff := 0#16
      rxBlen := BitVec.ofNat 16 p.length, rxStatus := .ok, rxFlight := none } := rfl

/-- Everything RECV does with a payload (46_send_recv R280 to R286). -/
theorem State.deliverClassified_cases (p : List Byte) :
    let stored : State := { s with rxb := s.rxb.store 0 p, rxbLen := BitVec.ofNat 16 p.length, rxFlight := none }
    (p = [] ∧ s.deliverClassified p = { stored with
      rxOff := 0#16, rxBlen := 0#16, rxStatus := .emptyPayload, sess := .dead }) ∨
    ∃ opc body, p = opc :: body ∧
      let cls := classify s.cfg .rx opc
      let named : State := { stored with rxOpc := opc, rxClass := cls }
      (cls = .none ∧ s.deliverClassified p = { named with
        rxOff := 1#16, rxBlen := BitVec.ofNat 16 body.length, rxStatus := .ok }) ∨
      (cls ≠ .none ∧ p.length < 5 ∧ s.deliverClassified p = { named with
        rxOff := 0#16, rxBlen := BitVec.ofNat 16 p.length, rxStatus := .shortEncryptedPayload, sess := .dead }) ∨
      (cls ≠ .none ∧ ∃ ord cbody t0 t1 t2, p = opc :: ord :: (cbody ++ [t0, t1, t2]) ∧
        let ab := trailerUnpack s.cfg.trailerOrder t0 t1 t2
        ((s.effectiveKey cls ab.1 ab.2 = none ∧ s.deliverClassified p = { named with
          rxOff := 0#16, rxBlen := BitVec.ofNat 16 p.length, rxStatus := .noKeyMaterial }) ∨
        (∃ key, s.effectiveKey cls ab.1 ab.2 = some key ∧ s.deliverClassified p = { named with
          rxb := (s.rxb.store 0 p).store 2 (crypt cbody ord key (s.salt .rx))
          rxOrd := ord, rxA := ab.1, rxB := ab.2, rxOff := 2#16, rxBlen := BitVec.ofNat 16 cbody.length
          rxStatus := .ok }))) := by
  match p with
  | [] => exact .inl ⟨rfl, State.raise_rx_fatal .emptyPayload rfl⟩
  | opc :: body =>
    intro stored
    refine .inr ⟨opc, body, rfl, ?_⟩
    intro cls named
    by_cases h0 : cls = .none
    · exact .inl ⟨h0, by simp only [State.deliverClassified]; rw [if_pos h0]; rfl⟩
    cases hs : splitEncrypted (opc :: body) with
    | none =>
      refine .inr (.inl ⟨h0, (splitEncrypted_none _).1 hs, ?_⟩)
      simp only [State.deliverClassified, hs]
      rw [if_neg h0]; exact State.raise_rx_fatal .shortEncryptedPayload rfl
    | some x =>
      obtain ⟨opc', ord, cbody, t0, t1, t2⟩ := x
      have hp := splitEncrypted_some hs
      obtain ⟨rfl, -⟩ : opc = opc' ∧ _ := by simpa using hp
      refine .inr (.inr ⟨h0, ord, cbody, t0, t1, t2, hp, ?_⟩)
      intro ab
      simp only [State.deliverClassified, hs]
      rw [if_neg h0]
      cases hk : s.effectiveKey cls ab.1 ab.2 with
      | none => exact .inl ⟨rfl, State.raise_rx_refusal .noKeyMaterial rfl⟩
      | some key => exact .inr ⟨key, rfl, rfl⟩

/-- Everything the completion of CRYPT.RX does (42_crypt R176). -/
theorem State.cryptRxComplete_cases (f : RxFlight) :
    (s.rawKey = none ∧ s.cryptRxComplete f = { s with rxStatus := .noKeyMaterial, rxFlight := none }) ∨
    (∃ key, s.rawKey = some key ∧ s.cryptRxComplete f = { s with
      rxb := s.rxb.store f.off.toNat
        (crypt (s.memRead .rxb f.off.toNat f.blen.toNat) f.ord key (s.salt .rx))
      rxStatus := .ok, rxFlight := none }) := by
  cases h : s.rawKey with
  | none => exact .inl ⟨rfl, by rw [State.cryptRxComplete, h]; exact State.raise_rx_refusal .noKeyMaterial rfl⟩
  | some key => exact .inr ⟨key, rfl, by simp [State.cryptRxComplete, h, State.finish]⟩

/-! ### The two transitions of a TX or RX command (47_session_system R300) -/

theorem exec_frameWr_issue (hp : s.phase = .issue) : exec .frameWr s = .next (s.issueTx .frameWr) := by
  simp only [exec, execFrameWr, State.byPhase, hp]

theorem exec_frameWr_completion {f : TxFlight} (hp : s.phase = .completion) (hf : s.txFlight = some f) :
    exec .frameWr s = .next (s.frameWrComplete f) := by
  simp only [exec, execFrameWr, State.byPhase, hp, State.withTx, hf]

theorem exec_send_issue (hp : s.phase = .issue) : exec .send s = .next (s.issueTx .send) := by
  simp only [exec, execSend, State.byPhase, hp]

theorem exec_send_completion {f : TxFlight} (hp : s.phase = .completion) (hf : s.txFlight = some f) :
    exec .send s = .next (s.sendComplete f) := by
  simp only [exec, execSend, State.byPhase, hp, State.withTx, hf]

theorem exec_cryptTx_issue (hp : s.phase = .issue) : exec .cryptTx s = .next (s.issueTx .cryptTx) := by
  simp only [exec, execCryptTx, State.byPhase, hp]

theorem exec_cryptTx_completion {f : TxFlight} (hp : s.phase = .completion) (hf : s.txFlight = some f) :
    exec .cryptTx s = .next (s.cryptTxComplete f) := by
  simp only [exec, execCryptTx, State.byPhase, hp, State.withTx, hf]

theorem exec_frameRd_issue (hp : s.phase = .issue) : exec .frameRd s = .next (s.issueRx .frameRd) := by
  simp only [exec, execFrameRd, State.byPhase, hp]

theorem exec_frameRd_completion {f : RxFlight} (hp : s.phase = .completion) (hf : s.rxFlight = some f) :
    exec .frameRd s = .next (s.frameReadThen State.deliverRaw) := by
  simp only [exec, execFrameRd, State.byPhase, hp, State.withRx, hf]

theorem exec_recv_issue (hp : s.phase = .issue) : exec .recv s = .next (s.issueRx .recv) := by
  simp only [exec, execRecv, State.byPhase, hp]

theorem exec_recv_completion {f : RxFlight} (hp : s.phase = .completion) (hf : s.rxFlight = some f) :
    exec .recv s = .next (s.frameReadThen State.deliverClassified) := by
  simp only [exec, execRecv, State.byPhase, hp, State.withRx, hf]

theorem exec_cryptRx_issue (hp : s.phase = .issue) : exec .cryptRx s = .next (s.issueRx .cryptRx) := by
  simp only [exec, execCryptRx, State.byPhase, hp]

theorem exec_cryptRx_completion {f : RxFlight} (hp : s.phase = .completion) (hf : s.rxFlight = some f) :
    exec .cryptRx s = .next (s.cryptRxComplete f) := by
  simp only [exec, execCryptRx, State.byPhase, hp, State.withRx, hf]

/-! ### The step -/

theorem step_nil (h : s.moves = []) : step s = .next s := by simp [step, h]

theorem step_cons {m : Move} {rest : List Move} (h : s.moves = m :: rest) : step s = runMove m (s.advance rest) := by
  simp [step, h]

/-- Whatever a step does, nothing was scheduled or it made the next move. -/
theorem step_cases {t : State} (h : step s = .next t) :
    (s.moves = [] ∧ t = s) ∨ ∃ m rest, s.moves = m :: rest ∧ runMove m (s.advance rest) = .next t := by
  cases hm : s.moves with
  | nil => rw [step_nil hm] at h; injection h with h; exact .inl ⟨rfl, h.symm⟩
  | cons m rest => rw [step_cons hm] at h; exact .inr ⟨m, rest, rfl, h⟩

/-- A completion step is `exec` at the completion phase. -/
theorem complete_next {i : Instr} {u : State} (h : exec i { s with phase := .completion } = .next u) :
    complete i s = .next { u with phase := .issue } := by
  simp [complete, h]

end Sys2Proof.Machine
end

