-- ==== Sys2Proof/Laws/PerInstr.lean ====
section
/-! SUPPORT. Statements about every instruction as syntax, one lemma per constructor. EncodedSize: the number of bytes of
an encoding is its header and its payload (30_encoding R90, R94, R111). -/

namespace Sys2Proof.Laws

/-- Bytes of an encoding besides the payload: a command's code, a frame's header. -/
def headerLength : Instr → Nat
  | .nop | .reset | .sessOpen | .sessKey | .sktGen | .sessClose => 1
  | .frameWr | .send | .cryptTx | .frameRd | .recv | .cryptRx => 1
  | .frame .. => 3
  | .pPlain .. | .pNormTx .. | .pMd5Tx .. | .pEncRx .. => 0

/-- The size of an instruction's encoding. -/
def EncodedSize.Statement (i : Instr) : Prop := (encode i).length = headerLength i + i.payloadLength

theorem EncodedSize.nop : EncodedSize.Statement .nop := rfl
theorem EncodedSize.reset : EncodedSize.Statement .reset := rfl
theorem EncodedSize.sessOpen : EncodedSize.Statement .sessOpen := rfl
theorem EncodedSize.sessKey : EncodedSize.Statement .sessKey := rfl
theorem EncodedSize.sktGen : EncodedSize.Statement .sktGen := rfl
theorem EncodedSize.sessClose : EncodedSize.Statement .sessClose := rfl
theorem EncodedSize.frameWr : EncodedSize.Statement .frameWr := rfl
theorem EncodedSize.send : EncodedSize.Statement .send := rfl
theorem EncodedSize.cryptTx : EncodedSize.Statement .cryptTx := rfl
theorem EncodedSize.frameRd : EncodedSize.Statement .frameRd := rfl
theorem EncodedSize.recv : EncodedSize.Statement .recv := rfl
theorem EncodedSize.cryptRx : EncodedSize.Statement .cryptRx := rfl

theorem EncodedSize.frame (d : Dir) (p : List Byte) : EncodedSize.Statement (.frame d p) := by
  simp [EncodedSize.Statement, encode, frameBytes, headerLength, Instr.payloadLength]; omega

theorem EncodedSize.pPlain (d : Dir) (opc : Byte) (body : List Byte) : EncodedSize.Statement (.pPlain d opc body) := by
  simp [EncodedSize.Statement, encode, headerLength, Instr.payloadLength]; omega

theorem EncodedSize.pNormTx (opc ord : Byte) (cbody : List Byte) (t0 t1 t2 : Byte) :
    EncodedSize.Statement (.pNormTx opc ord cbody t0 t1 t2) := by
  simp [EncodedSize.Statement, encode, headerLength, Instr.payloadLength]; omega

theorem EncodedSize.pMd5Tx (opc ord : Byte) (cbody frag : List Byte) (t0 t1 t2 : Byte) :
    EncodedSize.Statement (.pMd5Tx opc ord cbody frag t0 t1 t2) := by
  simp [EncodedSize.Statement, encode, headerLength, Instr.payloadLength]; omega

theorem EncodedSize.pEncRx (opc ord : Byte) (cbody : List Byte) (t0 t1 t2 : Byte) :
    EncodedSize.Statement (.pEncRx opc ord cbody t0 t1 t2) := by
  simp [EncodedSize.Statement, encode, headerLength, Instr.payloadLength]; omega

end Sys2Proof.Laws
end

