-- ==== Sys2Proof/Laws/Step.lean ====
section
/-! SUPPORT. What a completion step can write, and what a step can do: each said once, whole, so that a statement about
every step is a short case analysis. -/

namespace Sys2Proof.Machine

/-! ### What a completion step writes (20_memory R61, R76) -/

/-- The values a TX completion leaves in the state that TX writes. -/
structure TxEffect where
  status : Status
  cls : Cls
  a : Half
  b : Byte
  ord : Byte
  lcg : Word
  txb : Memory
  txs : Option (List Byte)
  /-- Whether the session dies. -/
  dead : Bool

/-- A state with a TX completion's values written, and nothing else. -/
def State.applyTx (s : State) (w : TxEffect) : State :=
  { s with
    txStatus := w.status, txClass := w.cls, txA := w.a, txB := w.b, ord := w.ord, lcg := w.lcg, txb := w.txb
    txs := w.txs, txFlight := none, sess := if w.dead then .dead else s.sess }

/-- The values an RX completion leaves in the state that RX writes. -/
structure RxEffect where
  status : Status
  cls : Cls
  a : Half
  b : Byte
  ord : Byte
  opc : Byte
  len : Half
  off : Half
  blen : Half
  rxb : Memory
  rxs : Option RxStream
  /-- A held command stays in flight. -/
  flight : Option RxFlight
  /-- Whether the session dies. -/
  dead : Bool

/-- A state with an RX completion's values written, and nothing else. -/
def State.applyRx (s : State) (w : RxEffect) : State :=
  { s with
    rxStatus := w.status, rxClass := w.cls, rxA := w.a, rxB := w.b, rxOrd := w.ord, rxOpc := w.opc, rxbLen := w.len
    rxOff := w.off, rxBlen := w.blen, rxb := w.rxb, rxs := w.rxs, rxFlight := w.flight
    sess := if w.dead then .dead else s.sess }

/-- The state after the completion of the TX command in flight. -/
def State.txCompletion (s : State) (f : TxFlight) : State :=
  match f.cmd with
  | .frameWr => s.frameWrComplete f
  | .send => s.sendComplete f
  | .cryptTx => s.cryptTxComplete f

/-- The state after the completion of the RX command in flight. -/
def State.rxCompletion (s : State) (f : RxFlight) : State :=
  match f.cmd with
  | .frameRd => s.frameReadThen State.deliverRaw
  | .recv => s.frameReadThen State.deliverClassified
  | .cryptRx => s.cryptRxComplete f

theorem exec_tx_completion {s : State} {f : TxFlight} (hp : s.phase = .completion) (hf : s.txFlight = some f) :
    exec f.cmd.instr s = .next (s.txCompletion f) := by
  unfold State.txCompletion
  cases hc : f.cmd
  · exact exec_frameWr_completion hp hf
  · exact exec_send_completion hp hf
  · exact exec_cryptTx_completion hp hf

theorem exec_rx_completion {s : State} {f : RxFlight} (hp : s.phase = .completion) (hf : s.rxFlight = some f) :
    exec f.cmd.instr s = .next (s.rxCompletion f) := by
  unfold State.rxCompletion
  cases hc : f.cmd
  · exact exec_frameRd_completion hp hf
  · exact exec_recv_completion hp hf
  · exact exec_cryptRx_completion hp hf

theorem frameWrite_effect (s : State) (p : List Byte) : ∃ w, s.frameWrite p = s.applyTx w := by
  by_cases h : p.length ≤ 65535
  · rw [State.frameWrite_ok _ h]
    exact ⟨⟨.ok, s.txClass, s.txA, s.txB, s.ord, s.lcg, s.txb, _, false⟩, rfl⟩
  · rw [State.frameWrite_tooLarge _ (by omega)]
    exact ⟨⟨.payloadTooLarge, s.txClass, s.txA, s.txB, s.ord, s.lcg, s.txb, s.txs, true⟩, rfl⟩

/-- Whatever the command, a TX completion writes a TX effect and nothing else. -/
theorem State.txCompletion_effect (f : TxFlight) (s : State) : ∃ w, s.txCompletion f = s.applyTx w := by
  unfold State.txCompletion
  cases f.cmd
  · exact frameWrite_effect s _
  · simp only
    rcases State.sendComplete_cases (s := s) f with ⟨_, q⟩ | ⟨_, _, q⟩ | ⟨_, key, _, ⟨_, q⟩ | ⟨_, q⟩⟩ <;> rw [q]
    · obtain ⟨w, hw⟩ := frameWrite_effect {s with txClass := .none} (f.opc :: s.memRead .txb 0 f.len.toNat)
      exact ⟨w, hw⟩
    · exact ⟨⟨_, _, s.txA, s.txB, s.ord, s.lcg, s.txb, s.txs, false⟩, rfl⟩
    · exact ⟨⟨_, _, s.txA, s.txB, s.ord, s.lcg, s.txb, s.txs, true⟩, rfl⟩
    · exact ⟨⟨_, _, _, _, _, _, _, _, false⟩, rfl⟩
  · simp only
    rcases State.cryptTxComplete_cases (s := s) f with ⟨_, q⟩ | ⟨_, _, q⟩ <;> rw [q]
    · exact ⟨⟨_, s.txClass, s.txA, s.txB, s.ord, s.lcg, s.txb, s.txs, false⟩, rfl⟩
    · exact ⟨⟨_, s.txClass, s.txA, s.txB, s.ord, s.lcg, _, s.txs, false⟩, rfl⟩

/-- Whatever the command, an RX completion writes an RX effect and nothing else. -/
theorem State.rxCompletion_effect (f : RxFlight) (s : State) : ∃ w, s.rxCompletion f = s.applyRx w := by
  let same (s : State) : RxEffect :=
    ⟨s.rxStatus, s.rxClass, s.rxA, s.rxB, s.rxOrd, s.rxOpc, s.rxbLen, s.rxOff, s.rxBlen, s.rxb, s.rxs, s.rxFlight, false⟩
  have fr : ∀ k : State → List Byte → State, (∀ u p, ∃ w, k u p = u.applyRx w) →
      ∃ w, s.frameReadThen k = s.applyRx w := by
    intro k hk
    rcases State.frameReadThen_cases (s := s) k with ⟨_, q⟩ | ⟨q, p, rest, _, hd, e⟩ | ⟨q, e, n, hq, _, e'⟩
    · rw [q]; exact ⟨same s, rfl⟩
    · obtain ⟨w, hw⟩ := hk (s.takeFrame p) p
      rw [e, hw]; exact ⟨w, rfl⟩
    · rw [e']; exact ⟨{ same s with status := e, rxs := some (q.take n), flight := none, dead := true }, rfl⟩
  unfold State.rxCompletion
  cases f.cmd
  · exact fr _ fun u p => ⟨⟨_, u.rxClass, u.rxA, u.rxB, u.rxOrd, u.rxOpc, _, _, _, _, u.rxs, _, false⟩, rfl⟩
  · refine fr _ fun u p => ?_
    rcases State.deliverClassified_cases (s := u) p with ⟨hp, e⟩ | ⟨opc, body, hp, h⟩
    · rw [e]; exact ⟨⟨_, u.rxClass, u.rxA, u.rxB, u.rxOrd, u.rxOpc, _, _, _, _, u.rxs, _, true⟩, rfl⟩
    rcases h with ⟨_, e⟩ | ⟨_, _, e⟩ | ⟨_, ord, cb, t0, t1, t2, hp', ⟨_, e⟩ | ⟨key, _, e⟩⟩ <;> rw [e]
    · exact ⟨⟨_, _, u.rxA, u.rxB, u.rxOrd, _, _, _, _, _, u.rxs, _, false⟩, rfl⟩
    · exact ⟨⟨_, _, u.rxA, u.rxB, u.rxOrd, _, _, _, _, _, u.rxs, _, true⟩, rfl⟩
    · exact ⟨⟨_, _, u.rxA, u.rxB, u.rxOrd, _, _, _, _, _, u.rxs, _, false⟩, rfl⟩
    · exact ⟨⟨_, _, _, _, _, _, _, _, _, _, u.rxs, _, false⟩, rfl⟩
  · simp only
    rcases State.cryptRxComplete_cases (s := s) f with ⟨_, q⟩ | ⟨_, _, q⟩ <;> rw [q]
    · exact ⟨{ same s with status := .noKeyMaterial, flight := none }, rfl⟩
    · exact ⟨{ same s with status := .ok, rxb := _, flight := none }, rfl⟩

/-! ### What a step can do -/

/-- Every outcome of a CMD write: ISSUE_STATUS alone, a system command's effect, or a command put in flight. -/
inductive IssueOutcome (s : State) (code : Byte) : State → Prop where
  | statusOnly (e : Status) : IssueOutcome s code (s.setIssue e)
  | reset : code = 0x01#8 → IssueOutcome s code s.resetMachine
  | opened : code = 0x02#8 → s.txFlight = none → s.rxFlight = none → IssueOutcome s code s.openSession
  | closed : code = 0x05#8 → s.txFlight = none → s.rxFlight = none → IssueOutcome s code s.closeSession
  | keyed : code = 0x03#8 → s.sess = .live → s.cipherValid = false →
      IssueOutcome s code
        { s with
          saltTx := s.saltTx.store 0 (saltBuild s.cfg s.argSeed), saltRx := s.saltRx.store 0 (saltBuild s.cfg s.argSeed)
          keyRaw := s.keyRaw.store 0 (s.memRead .pb 0 s.pbLen.toNat), seed := s.argSeed, keyLen := s.pbLen
          cipherValid := true, issueStatus := .ok }
  | tabled : code = 0x04#8 → s.sess = .live →
      IssueOutcome s code
        { s with skt := s.skt.store 0 (sktGen (s.memRead .pb 0 s.pbLen.toNat)), sktValid := true, issueStatus := .ok }
  | txFlying (c : TxCommand) : s.sess = .live → s.txFlight = none → s.txbLen.toNat ≤ txbCap →
      IssueOutcome s code { s with issueStatus := .ok, txFlight := some (s.latchTx c) }
  | rxFlying (c : RxCommand) : s.sess = .live → s.rxFlight = none →
      IssueOutcome s code { s with issueStatus := .ok, rxFlight := some (s.latchRx c) }

theorem ifIdle_outcome {s run : State} {code : Byte}
    (h : s.txFlight = none → s.rxFlight = none → IssueOutcome s code run) : IssueOutcome s code (s.ifIdle run) := by
  rcases State.ifIdle_cases (s := s) run with ⟨a, b, e⟩ | e <;> rw [e]
  · exact h a b
  · exact .statusOnly _

theorem ifLive_outcome {s run : State} {code : Byte} (h : s.sess = .live → IssueOutcome s code run) :
    IssueOutcome s code (s.ifLive run) := by
  rcases State.ifLive_cases (s := s) run with ⟨a, e⟩ | ⟨x, e⟩ <;> rw [e]
  · exact h a
  · exact .statusOnly _

theorem issueTx_outcome {s : State} {code : Byte} (c : TxCommand) : IssueOutcome s code (s.issueTx c) := by
  rcases State.issueTx_cases (s := s) c with ⟨h1, h2, h3, e⟩ | ⟨x, e⟩ <;> rw [e]
  · exact .txFlying c h2 h1 h3
  · exact .statusOnly _

theorem issueRx_outcome {s : State} {code : Byte} (c : RxCommand) : IssueOutcome s code (s.issueRx c) := by
  rcases State.issueRx_cases (s := s) c with ⟨h1, h2, e⟩ | ⟨x, e⟩ <;> rw [e]
  · exact .rxFlying c h2 h1
  · exact .statusOnly _

/-- A CMD write has one of these outcomes (47_session_system R300). -/
theorem issueCommand_outcome {s t : State} {code : Byte} (hp : s.phase = .issue)
    (h : issueCommand code s = .next t) : IssueOutcome s code t := by
  simp only [issueCommand, decode] at h
  cases hd : decodeCommand code with
  | error e =>
    simp only [hd, Except.map] at h
    injection h with h; subst h; exact .statusOnly _
  | ok i =>
    simp only [hd, Except.map] at h
    have hc := decodeCommand_code code hd
    unfold decodeCommand at hd
    split at hd <;> (first | cases hd; done | (injection hd with hd; subst hd))
    · injection h with h; subst h; exact .statusOnly _
    · injection h with h; subst h; exact .reset hc.symm
    · injection h with h; subst h; exact ifIdle_outcome (.opened hc.symm)
    · injection h with h; subst h
      refine ifIdle_outcome fun _ _ => ifLive_outcome fun hl => ?_
      split
      · exact .statusOnly _
      · rename_i hv; exact .keyed hc.symm hl (by simpa using hv)
    · injection h with h; subst h
      exact ifIdle_outcome fun _ _ => ifLive_outcome fun hl => .tabled hc.symm hl
    · injection h with h; subst h; exact ifIdle_outcome (.closed hc.symm)
    · rw [exec_frameWr_issue hp] at h; injection h with h; subst h; exact issueTx_outcome _
    · rw [exec_send_issue hp] at h; injection h with h; subst h; exact issueTx_outcome _
    · rw [exec_cryptTx_issue hp] at h; injection h with h; subst h; exact issueTx_outcome _
    · rw [exec_frameRd_issue hp] at h; injection h with h; subst h; exact issueRx_outcome _
    · rw [exec_recv_issue hp] at h; injection h with h; subst h; exact issueRx_outcome _
    · rw [exec_cryptRx_issue hp] at h; injection h with h; subst h; exact issueRx_outcome _

/-- Every step there is (60_exceptions R360). -/
inductive StepOutcome (s : State) : State → Prop where
  | nothing : s.moves = [] → StepOutcome s s
  | command (v : Word) (rest : List Move) (t : State) : s.moves = .writeReg 0#8 v :: rest →
      issueCommand (v.setWidth 8) (s.advance rest) = .next t → StepOutcome s t
  | register (no : Byte) (v : Word) (rest : List Move) : no ≠ 0#8 → s.moves = .writeReg no v :: rest →
      StepOutcome s ((s.advance rest).writeReg no v)
  | txCompletes (f : TxFlight) (rest : List Move) : s.moves = .tx :: rest → s.txFlight = some f →
      StepOutcome s { { s.advance rest with phase := .completion }.txCompletion f with phase := .issue }
  | rxCompletes (f : RxFlight) (rest : List Move) : s.moves = .rx :: rest → s.rxFlight = some f →
      StepOutcome s { { s.advance rest with phase := .completion }.rxCompletion f with phase := .issue }
  | passes (rest : List Move) : StepOutcome s (s.advance rest)
  | writesPb (i : Nat) (bs : List Byte) (rest : List Move) : s.moves = .memWrite .pb i bs :: rest →
      i + bs.length ≤ 255 → StepOutcome s { s.advance rest with pb := s.pb.store i bs }
  | writesTxb (i : Nat) (bs : List Byte) (rest : List Move) : s.moves = .memWrite .txb i bs :: rest →
      i + bs.length ≤ 65536 → s.txFlight = none → StepOutcome s { s.advance rest with txb := s.txb.store i bs }
  | reads (x : HostPort) (rest : List Move) : StepOutcome s { s.advance rest with hostPort := x }
  | stream (q q' : RxStream) (rest : List Move) : s.rxs = some q →
      StepOutcome s { s.advance rest with rxs := some q' }

/-- A step that answers a next state is one of these. -/
theorem step_outcome {s t : State} (h : step s = .next t) : StepOutcome s t := by
  rcases step_cases h with ⟨a, rfl⟩ | ⟨m, rest, hm, hr⟩
  · exact .nothing a
  cases m with
  | writeReg no v =>
    simp only [runMove] at hr
    split at hr
    · rename_i h0; subst h0; exact .command v rest t hm hr
    · rename_i h0; injection hr with hr; subst hr; exact .register no v rest h0 hm
  | readReg no => injection hr with hr; subst hr; exact .reads _ rest
  | memWrite sp i bs =>
    simp only [runMove, State.hostWrite] at hr
    split at hr
    · cases hr
    rename_i hsz
    split at hr
    · cases hr
    rename_i hb
    cases sp <;> injection hr with hr <;> subst hr
    case pb => exact .writesPb i bs rest hm (by simpa [Space.size] using hsz)
    case txb =>
      exact .writesTxb i bs rest hm (by simpa [Space.size] using hsz)
        (by simpa [State.bufferBusy, State.txBusy] using hb)
    all_goals exact .passes rest
  | memRead sp i n =>
    simp only [runMove, State.hostRead] at hr
    split at hr
    · cases hr
    split at hr
    · cases hr
    injection hr with hr; subst hr; exact .reads _ rest
  | tx =>
    simp only [runMove] at hr
    split at hr
    · rename_i f hf
      rw [complete_next (exec_tx_completion (s := { s.advance rest with phase := .completion }) rfl hf)] at hr
      injection hr with hr; subst hr; exact .txCompletes f rest hm hf
    · injection hr with hr; subst hr; exact .passes rest
  | rx =>
    simp only [runMove] at hr
    split at hr
    · rename_i f hf
      rw [complete_next (exec_rx_completion (s := { s.advance rest with phase := .completion }) rfl hf)] at hr
      injection hr with hr; subst hr; exact .rxCompletes f rest hm hf
    · injection hr with hr; subst hr; exact .passes rest
  | feed bs =>
    simp only [runMove, State.feed] at hr
    split at hr
    · rename_i q hq
      split at hr
      · cases hr
      · injection hr with hr; subst hr; exact .stream q _ rest hq
    · cases hr
  | close =>
    simp only [runMove, State.close] at hr
    split at hr
    · rename_i q hq
      injection hr with hr; subst hr; exact .stream q _ rest hq
    · cases hr

end Sys2Proof.Machine
end

