-- ==== Sys2Proof/Tests/Slice0.lean ====
section
/-! SUPPORT. Tests on fixed values, and a witness for the hypotheses of each obligation. Expected values come from
spec/95_test_vectors.md (T1 to T75, P1 to P6), named at each test, or from the encodings of spec/30_encoding.md. -/

namespace Sys2Proof.Tests

set_option Elab.async false

open Sys2Proof Sys2Proof.Machine

/-! ### Well-formedness: each check refuses an ill-formed term -/

theorem test_wellFormed_refuses_long_payload :
    (Instr.frame .tx (List.replicate 65536 0#8)).wellFormed 4 = false := by
  rw [Instr.wellFormed, Instr.payloadLength, List.length_replicate]
  rfl

theorem test_wellFormed_refuses_long_encrypted_payload :
    (Instr.pEncRx 0#8 0#8 (List.replicate 65531 0#8) 0#8 0#8 0#8).wellFormed 4 = false := by
  rw [Instr.wellFormed, Instr.payloadLength, List.length_replicate]
  rfl

theorem test_wellFormed_refuses_three_fragments_of_four :
    (Instr.pMd5Tx 0#8 0#8 [] [0#8, 0#8, 0#8] 0#8 0#8 0#8).wellFormed 4 = false := by decide

/-! ### Decoding of words written out from 30_encoding R90, R94, R103, R104, R106, R110 -/

theorem test_decode_nop : decodeTableWord 8 0b00000000 = some .nop := by decide
theorem test_decode_reset : decodeTableWord 8 0b00000001 = some .reset := by decide
theorem test_decode_sessOpen : decodeTableWord 8 0b00000010 = some .sessOpen := by decide
theorem test_decode_sessKey : decodeTableWord 8 0b00000011 = some .sessKey := by decide
theorem test_decode_sktGen : decodeTableWord 8 0b00000100 = some .sktGen := by decide
theorem test_decode_sessClose : decodeTableWord 8 0b00000101 = some .sessClose := by decide
theorem test_decode_frameWr : decodeTableWord 8 0b00010000 = some .frameWr := by decide
theorem test_decode_send : decodeTableWord 8 0b00010001 = some .send := by decide
theorem test_decode_cryptTx : decodeTableWord 8 0b00010010 = some .cryptTx := by decide
theorem test_decode_frameRd : decodeTableWord 8 0b00100000 = some .frameRd := by decide
theorem test_decode_recv : decodeTableWord 8 0b00100001 = some .recv := by decide
theorem test_decode_cryptRx : decodeTableWord 8 0b00100010 = some .cryptRx := by decide

/-- T7: the first of two frames, and what is left. -/
theorem test_decode_frame :
    decode 4 (.frame .rx) [0xaa#8, 0x00#8, 0x01#8, 0x7e#8, 0xaa#8, 0x00#8, 0x02#8, 0x01#8, 0x02#8]
      = .ok (.frame .rx [0x7e#8], [0xaa#8, 0x00#8, 0x02#8, 0x01#8, 0x02#8]) := by decide

/-- T52. -/
theorem test_decode_pPlain :
    decode 4 (.payload .rx .none) [0x10#8, 0x68#8, 0x69#8] = .ok (.pPlain .rx 0x10#8 [0x68#8, 0x69#8], []) := by decide

/-- T53. -/
theorem test_decode_pNormTx :
    decode 4 (.payload .tx .normal) [0x02#8, 0x00#8, 0x96#8, 0x98#8, 0x59#8, 0x47#8, 0x75#8]
      = .ok (.pNormTx 0x02#8 0x00#8 [0x96#8, 0x98#8] 0x59#8 0x47#8 0x75#8, []) := by decide

/-- T58. -/
theorem test_decode_pMd5Tx :
    decode 4 (.payload .tx .md5) [0x38#8, 0x00#8, 0x80#8, 0xfc#8, 0xe7#8, 0x29#8, 0x59#8, 0x47#8, 0x75#8]
      = .ok (.pMd5Tx 0x38#8 0x00#8 [] [0x80#8, 0xfc#8, 0xe7#8, 0x29#8] 0x59#8 0x47#8 0x75#8, []) := by decide

/-- T60. -/
theorem test_decode_pEncRx :
    decode 4 (.payload .rx .normal) [0x03#8, 0xff#8, 0x11#8, 0x16#8, 0x70#8, 0x47#8, 0x75#8]
      = .ok (.pEncRx 0x03#8 0xff#8 [0x11#8, 0x16#8] 0x70#8 0x47#8 0x75#8, []) := by decide

/-- T70: code 0x7f; T8: magic 0xab; T64: an encrypted payload of 4 bytes; 30_encoding R93. -/
theorem test_decode_refuses :
    decode 4 .cmd [0x7f#8] = .error (.illegalCommand 0x7f#8) ∧
    decode 4 (.frame .rx) [0xab#8, 0x00#8, 0x01#8, 0x7e#8] = .error (.badMagic 0xab#8) ∧
    decode 4 (.payload .rx .normal) [0x02#8, 0x00#8, 0x11#8, 0x22#8] = .error (.encryptedShort 4) ∧
    decode 4 (.payload .rx .none) [] = .error .emptyPayload := by decide

/-- The three lengths of table words: a frame of two bytes; an encrypted payload; a byte that is no command's code. -/
theorem test_decodeTableWord_wire :
    decodeTableWord 24 0xaa0002 = some (.frame .rx [0x00#8, 0x00#8]) ∧
    decodeTableWord 24 0xab0002 = none ∧
    decodeTableWord 16 0x0203 = some (.pEncRx 0x02#8 0x03#8 [] 0x00#8 0x00#8 0x00#8) ∧
    decodeTableWord 8 0x38 = some (.pPlain .rx 0x38#8 []) := by decide

/-! ### Datapath vectors -/

/-- The table of a seed as its entries at stated indices. -/
def saltAt (seed : Byte) (is : List Nat) : List Nat := is.map fun i => (saltEntry vectorConfig seed i).toNat

/-- T16, T18: entries 0, 1, 120, 255. -/
theorem test_salt_signed_formulas :
    saltAt 1#8 [0, 1, 120, 255] = [0x80, 0x7f, 0xbc, 0x00] ∧ saltAt 3#8 [0, 1, 120, 255] = [0xff, 0x01, 0xc3, 0x80] := by
  decide +kernel

/-- T19, T22, T24, T25: entries 0, 127, 128, 255. -/
theorem test_salt_piecewise_formulas :
    saltAt 4#8 [0, 127, 128, 255] = [0x00, 0x31, 0x40, 0xe1] ∧ saltAt 7#8 [0, 127, 128, 255] = [0xff, 0x01, 0x00, 0xfe] ∧
    saltAt 9#8 [0, 1, 120, 255] = [0xff, 0x1e, 0xfe, 0x1e] ∧ saltAt 10#8 [0, 127, 128, 255] = [0, 0, 0, 0] := by
  decide +kernel

/-- T31: key `10 20`, ordinal 1, seed 3. -/
theorem test_crypt_skips_the_ordinal_salt :
    (crypt [0x00#8, 0x01#8, 0x02#8, 0x03#8, 0x04#8] 1#8 ⟨0x10#8, [0x20#8]⟩ (saltEntry vectorConfig 3#8 ·.toNat))
      = [0xee#8, 0xdf#8, 0x13#8, 0x22#8, 0xeb#8] := by decide +kernel

/-- T32: the salt index wraps at byte 256 (bytes 254 to 257). -/
theorem test_crypt_salt_index_wraps :
    (List.range 4).map (fun j => keystream 0#8 ⟨0xff#8, []⟩ (saltEntry vectorConfig 0#8 ·.toNat) (254 + j))
      = [0x01#8, 0x00#8, 0xff#8, 0xfe#8] := by decide +kernel

/-- 42_crypt R173: no bytes are no key. -/
theorem test_empty_key : Key.ofBytes? [] = none ∧ Key.ofBytes? [0xaa#8, 0x55#8] = some ⟨0xaa#8, [0x55#8]⟩ := by decide

/-- T41: "abc". -/
theorem test_md5_abc : hex (md5 [0x61#8, 0x62#8, 0x63#8]) =
    ("900150983cd24fb0d6963f7d28e17f72".toList.map fun c => BitVec.ofNat 8 c.toNat) := by decide +kernel

/-- T41: 56 bytes of `61`, which need a second block. -/
theorem test_md5_two_blocks : (md5 (List.replicate 56 0x61#8)).take 4 = [0x3b#8, 0x0c#8, 0x8a#8, 0xc7#8] := by
  decide +kernel

/-- T45: `SKT[0..3]` and `SKT[32..35]` for "alice". -/
theorem test_skt_alice :
    let first := sktAppend 1 (hex (md5 (hex (md5 [0x61#8, 0x6c#8, 0x69#8, 0x63#8, 0x65#8]))))
    first.take 4 = [0x34#8, 0x63#8, 0x31#8, 0x38#8] ∧ (first.drop 32).take 4 = [0x65#8, 0x37#8, 0x30#8, 0x63#8] := by
  decide +kernel

/-- T48: the first two steps of the generator. -/
theorem test_generator :
    lcgNext 1#32 = 0x0029e2c0#32 ∧ outboundA 0x0029e2c0#32 = 0x0129#16 ∧ lcgNext 0x0029e2c0#32 = 0xc823f683#32 ∧
    outboundA 0xc823f683#32 = 0x4923#16 := by decide

/-- T49: indices of rows (0x0129, 100) and (0xffff, 255). -/
theorem test_key9_indices :
    (List.range 9).map (key9Index 0x0129#16 100#8) = [297, 66, 877, 682, 505, 346, 205, 82, 1001] ∧
    (List.range 9).map (key9Index 0xffff#16 255#8) = [1023, 521, 37, 595, 147, 741, 329, 959, 583] := by decide

/-- T50. -/
theorem test_trailer :
    trailerPack .loBHi 0x1234#16 66#8 = (0x44#8, 0x61#8, 0x66#8) ∧
    trailerUnpack .loBHi 0x8f#8 0xdc#8 0x8b#8 = (0xffff#16, 255#8) := by decide

/-- T51. -/
theorem test_hash_fragments : hashFrag vectorConfig [0x38#8, 0x02#8] = [0xe1#8, 0xdd#8, 0xeb#8, 0x68#8] := by
  decide +kernel

/-! ### One step of each instruction -/

/-- A live session with the parameters of 95_test_vectors, no key. -/
def live : State :=
  { State.reset with
    sess := .live, cfg := vectorConfig, txs := some [], rxs := some { unread := [], pos := 0, closed := false } }

/-- `s` with the host about to write a command code. -/
def issuing (s : State) (code : Word) : State := { s with moves := [.writeReg 0#8 code] }

/-- The session of T38, T53: seed 3, key 01 to 09. -/
def keyed : State :=
  { live with
    cipherValid := true, seed := 3#8, keyLen := 9#8
    keyRaw := cellsAt 0 [1#8, 2#8, 3#8, 4#8, 5#8, 6#8, 7#8, 8#8, 9#8]
    saltTx := cellsAt 0 (saltBuild vectorConfig 3#8), saltRx := cellsAt 0 (saltBuild vectorConfig 3#8) }

/-- The cells of "alice"'s table (T46) that key9 of T59 samples. -/
def named : State :=
  { keyed with
    sktValid := true
    skt := [(41, 0x31#8), (96, 0x30#8), (148, 0x30#8), (400, 0x62#8), (401, 0x33#8), (564, 0x61#8), (724, 0x30#8),
      (777, 0x31#8), (833, 0x62#8)] }

/-- "hello". -/
def hello : List Byte := [0x68#8, 0x65#8, 0x6c#8, 0x6c#8, 0x6f#8]

/-- `s` with a TX command in flight and TX to move. -/
def sending (s : State) (cmd : TxCommand) (opc ord : Byte) (body : List Byte) : State :=
  { s with
    txb := cellsAt 0 body, txFlight := some { cmd := cmd, opc := opc, len := BitVec.ofNat 17 body.length, ord := ord }
    moves := [.tx] }

/-- `s` with an RX command in flight, bytes on RXS, and RX to move. -/
def receiving (s : State) (cmd : RxCommand) (bytes : List Byte) : State :=
  { s with
    rxs := some { unread := bytes, pos := 0, closed := false }
    rxFlight := some { cmd := cmd, ord := 0#8, off := 0#16, blen := 0#16 }, moves := [.rx] }

/-- What `f` reads after one step, if the step answers a next state. -/
def after {α : Type} (s : State) (f : State → α) : Option α :=
  match step s with
  | .next t => some (f t)
  | .fault _ => none
  | .refused _ => none

/-- T70: NOP after RESET; R308. -/
theorem test_nop : after (issuing { State.reset with issueStatus := .busy } 0x00#32) (·.readReg 1#8) = some 0#32 := by
  decide +kernel

/-- T72: RESET with RECV held: FLAGS, LCG, RX_STATUS. -/
theorem test_reset :
    after (issuing (receiving named .recv []) 0x01#32) (fun t => (t.sess, t.flags, t.lcg, t.rxStatus))
      = some (.none, 0#8, 1#32, .ok) := by decide +kernel

/-- T71: SESS.OPEN drops the key and keeps the operands. -/
theorem test_sessOpen :
    after (issuing { keyed with ord := 1#8, txA := 0x0129#16, txOpc := 0x38#8 } 0x02#32)
      (fun t => (t.sess, t.flags, t.ord, t.txA, t.txOpc)) = some (.live, 0#8, 0#8, 0#16, 0x38#8) := by decide +kernel

/-- P1 line 10: SESS.KEY; the salt table begins `ff 01 fe 02` and KEY_RAW is PB. -/
theorem test_sessKey :
    after (issuing { live with pb := cellsAt 0 [7#8, 8#8], pbLen := 2#8, argSeed := 3#8 } 0x03#32)
      (fun t => (t.flags, t.seed, t.keyLen, t.memRead .saltTx 0 4, t.memRead .keyRaw 0 2))
      = some (1#8, 3#8, 2#8, [0xff#8, 0x01#8, 0xfe#8, 0x02#8], [7#8, 8#8]) := by decide +kernel

/-- T66 (d): a second SESS.KEY. -/
theorem test_sessKey_twice : after (issuing keyed 0x03#32) (·.readReg 1#8) = some 36#32 := by decide +kernel

/-- T70: SKT.GEN without a session. -/
theorem test_sktGen_without_session :
    after (issuing State.reset 0x04#32) (fun t => (t.readReg 1#8, t.sktValid)) = some (34#32, false) := by
  decide +kernel

/-- T75: SESS.CLOSE. -/
theorem test_sessClose :
    after (issuing { keyed with ord := 1#8 } 0x05#32) (fun t => (t.readReg 2#8, t.flags, t.ord, t.keyLen, t.txs))
      = some (0#32, 0#8, 0#8, 0#8, none) := by decide +kernel

/-- T5: a TX command with TXB_LEN = 65537. -/
theorem test_frameWr_illegal_operand :
    after (issuing { live with txbLen := 65537#17 } 0x10#32) (fun t => (t.readReg 1#8, t.txBusy))
      = some (37#32, false) := by decide +kernel

/-- T2: FRAME.WR of one byte. -/
theorem test_frameWr :
    after (sending live .frameWr 0#8 0#8 [0x7e#8]) (fun t => (t.txStatus, t.txs))
      = some (.ok, some [0xaa#8, 0x00#8, 0x01#8, 0x7e#8]) := by decide +kernel

/-- T53: SEND of class Normal. -/
theorem test_send_normal :
    after (sending keyed .send 0x02#8 0#8 hello) (fun t => (t.txs, t.ord, t.lcg, t.txA, t.memRead .txb 0 1))
      = some (some [0xaa#8, 0x00#8, 0x0a#8, 0x02#8, 0x00#8, 0x96#8, 0x98#8, 0x90#8, 0x97#8, 0x95#8, 0x59#8, 0x47#8,
          0x75#8], 1#8, 0x0029e2c0#32, 0x0129#16, [0x96#8]) := by decide +kernel

/-- T58: SEND of class Md5, empty body. -/
theorem test_send_md5 :
    after (sending named .send 0x38#8 0#8 []) (fun t => (t.txs, t.txClass))
      = some (some [0xaa#8, 0x00#8, 0x09#8, 0x38#8, 0x00#8, 0x80#8, 0xfc#8, 0xe7#8, 0x29#8, 0x59#8, 0x47#8, 0x75#8],
          .md5) := by decide +kernel

/-- T38: CRYPT.TX with ordinal 7. -/
theorem test_cryptTx :
    after (sending keyed .cryptTx 0#8 7#8 hello) (fun t => (t.memRead .txb 0 5, t.ord, t.txs))
      = some ([0x92#8, 0x9c#8, 0x94#8, 0x93#8, 0x91#8], 0#8, some []) := by decide +kernel

/-- T7: FRAME.RD takes one frame. -/
theorem test_frameRd :
    after (receiving live .frameRd [0xaa#8, 0x00#8, 0x01#8, 0x7e#8, 0xaa#8, 0x00#8])
      (fun t => (t.rxbLen, t.memRead .rxb 0 1, t.rxs.map (·.unread))) = some (1#16, [0x7e#8], some [0xaa#8, 0x00#8]) := by
  decide +kernel

/-- T8: bad magic. -/
theorem test_frameRd_bad_magic :
    after (receiving { live with rxbLen := 1#16 } .frameRd [0xab#8, 0x00#8, 0x01#8, 0x7e#8, 0xaa#8])
      (fun t => (t.readReg 18#8, t.readReg 2#8, t.rxs.map (·.unread), t.rxbLen, t.rxBusy))
      = some (1#32, 2#32, some [0x7e#8, 0xaa#8], 1#16, false) := by decide +kernel

/-- T59: RECV of class Md5, "world!". -/
theorem test_recv_md5 :
    after (receiving named .recv [0xaa#8, 0x00#8, 0x0b#8, 0x05#8, 0x2a#8, 0x03#8, 0x18#8, 0x57#8, 0x4a#8, 0x41#8,
        0x05#8, 0x44#8, 0x61#8, 0x66#8])
      (fun t => (t.rxOrd, t.rxA, t.rxB, t.rxBlen, t.memRead .rxb 2 6))
      = some (42#8, 0x1234#16, 66#8, 6#16, [0x77#8, 0x6f#8, 0x72#8, 0x6c#8, 0x64#8, 0x21#8]) := by decide +kernel

/-- T65 (a): RECV of class Normal without a key. -/
theorem test_recv_no_key :
    after (receiving live .recv [0xaa#8, 0x00#8, 0x07#8, 0x03#8, 0xff#8, 0x11#8, 0x16#8, 0x70#8, 0x47#8, 0x75#8])
      (fun t => (t.readReg 18#8, t.sess, t.rxOpc, t.rxClass, t.rxBlen)) = some (16#32, .live, 3#8, .normal, 7#16) := by
  decide +kernel

/-- P3 lines 8 and 9: CRYPT.RX with ordinal 0xff on the window (2, 2). -/
theorem test_cryptRx :
    after { keyed with
        rxb := cellsAt 0 [0x03#8, 0xff#8, 0x6f#8, 0x6b#8, 0x70#8], rxbLen := 7#16, moves := [.rx]
        rxFlight := some { cmd := .cryptRx, ord := 0xff#8, off := 2#16, blen := 2#16 } }
      (fun t => (t.readReg 18#8, t.memRead .rxb 0 5)) = some (0#32, [0x03#8, 0xff#8, 0x11#8, 0x16#8, 0x70#8]) := by
  decide +kernel

/-- T70, 30_encoding R113: an illegal code. -/
theorem test_illegal_code : after (issuing State.reset 0x13#32) (·.readReg 1#8) = some 33#32 := by decide +kernel

/-- T9: FRAME.RD held, and after the close. -/
theorem test_truncated :
    after (receiving live .frameRd [0xaa#8, 0x00#8, 0x05#8, 0x01#8]) (fun t => (t.readReg 3#8, t.sess))
      = some (8#32, .live) ∧
    after { receiving live .frameRd [] with rxs := some { unread := [0xaa#8, 0x00#8, 0x05#8], pos := 0, closed := true } }
      (fun t => (t.readReg 18#8, t.sess)) = some (3#32, .dead) := by decide +kernel

/-- The instruction of a table word is the first that runs after reset. -/
theorem test_withFetchWord :
    after (State.reset.withFetchWord 8 0x11) (·.readReg 1#8) = some 34#32 ∧
    after (State.reset.withFetchWord 24 0xaa0002) (fun t => (t.rxbLen, t.memRead .rxb 0 2)) = some (2#16, [0#8, 0#8]) := by
  decide +kernel

/-- The same for a byte that is no command's code, and for an encrypted payload (no key after reset). -/
theorem test_withFetchWord_payload :
    after (State.reset.withFetchWord 8 0x38) (fun t => (t.readReg 18#8, t.rxOpc, t.rxClass))
      = some (0#32, 0x38#8, .none) ∧
    after (State.reset.withFetchWord 16 0x0203) (fun t => (t.readReg 18#8, t.rxClass))
      = some (16#32, .normal) := by decide +kernel

/-! ### Witnesses: each obligation's hypotheses, met together at boundary values -/

/-- `s` at the completion phase with SEND, FRAME.WR or CRYPT.TX in flight. -/
def txAt (s : State) (cmd : TxCommand) (opc : Byte) (len : BitVec 17) : State :=
  { s with phase := .completion, txFlight := some { cmd := cmd, opc := opc, len := len, ord := 0#8 } }

/-- `s` at the completion phase with an RX command in flight on a stream. -/
def rxAt (s : State) (cmd : RxCommand) (bytes : List Byte) (closed : Bool) : State :=
  { s with
    phase := .completion, rxs := some { unread := bytes, pos := 0, closed := closed }
    rxFlight := some { cmd := cmd, ord := 0#8, off := 0#16, blen := 0#16 } }

/-- A stream with bytes. -/
def stream (bytes : List Byte) (closed : Bool) : RxStream := { unread := bytes, pos := 0, closed := closed }

/-- The TX command `txAt` puts in flight. -/
def txCmd (cmd : TxCommand) (opc : Byte) (len : BitVec 17) : TxFlight := { cmd := cmd, opc := opc, len := len, ord := 0#8 }

/-- The raw key of `keyed`. -/
def rawKey9 : Key := ⟨1#8, [2#8, 3#8, 4#8, 5#8, 6#8, 7#8, 8#8, 9#8]⟩

/-- A sampled key is a key, whatever the table holds. -/
theorem key9_key (t : Nat → Byte) (a : Half) (b : Byte) : ∃ key : Key, key.bytes = key9 t a b := ⟨⟨_, _⟩, rfl⟩

/-- The RX command `rxAt` puts in flight. -/
def rxCmd (cmd : RxCommand) : RxFlight := { cmd := cmd, ord := 0#8, off := 0#16, blen := 0#16 }

theorem after_some {α : Type} {s : State} {f : State → α} {x : α} (h : after s f = some x) :
    ∃ t, step s = .next t ∧ f t = x := by
  simp only [after] at h
  split at h <;> simp_all

/-- What `f` reads after `exec`, if it answers a next state. -/
def ran {α : Type} (i : Instr) (s : State) (f : State → α) : Option α :=
  match exec i s with
  | .next t => some (f t)
  | .fault _ => none
  | .refused _ => none

theorem exec_some {α : Type} {i : Instr} {s : State} (f : State → α) {x : α} (h : ran i s f = some x) :
    ∃ t, exec i s = .next t ∧ f t = x := by
  simp only [ran] at h
  split at h <;> simp_all

/-- The first and the last operand register, and a read-only one. -/
theorem witness_HostWritesOnlyOperandRegisters :
    { live with moves := [.writeReg 8#8 0x100#32] }.moves = .writeReg 8#8 0x100#32 :: [] ∧ (8#8 : Byte) ≠ 0#8 ∧
    { live with moves := [.writeReg 17#8 1#32] }.moves = .writeReg 17#8 1#32 :: [] ∧ (17#8 : Byte) ≠ 0#8 ∧
    { live with moves := [.writeReg 26#8 1#32] }.moves = .writeReg 26#8 1#32 :: [] ∧ 26#8 ∉ operandRegisters := by
  decide +kernel

/-- Reads of 0, 26, 27 and 255; writes of 27 and 255. -/
theorem witness_RegisterReadsFollowTheTable :
    { live with moves := [.readReg 0#8] }.moves = .readReg 0#8 :: [] ∧
    { live with moves := [.readReg 26#8] }.moves = .readReg 26#8 :: [] ∧
    { live with moves := [.readReg 255#8] }.moves = .readReg 255#8 :: [] ∧
    27 ≤ (27#8).toNat ∧ { live with moves := [.writeReg 27#8 1#32] }.moves = .writeReg 27#8 1#32 :: [] ∧
    27 ≤ (255#8).toNat ∧ { live with moves := [.writeReg 255#8 1#32] }.moves = .writeReg 255#8 1#32 :: [] := by
  decide +kernel

/-- The longest frame and the longest encrypted payload. -/
theorem witness_WellFormedInstructionsRoundTrip :
    (Instr.frame .rx (List.replicate 65535 0#8)).wellFormed 4 = true ∧
    (Instr.pEncRx 0#8 0#8 (List.replicate 65530 0#8) 0#8 0#8 0#8).wellFormed 4 = true ∧
    (Instr.pMd5Tx 0#8 0#8 [] [0#8, 0#8, 0#8, 0#8] 0#8 0#8 0#8).wellFormed 4 = true := by
  refine ⟨?_, ?_, by decide⟩ <;>
    exact Bool.and_eq_true_iff.2 ⟨decide_eq_true (by rw [Instr.payloadLength, List.length_replicate]), rfl⟩

theorem witness_FramesAreSelfDelimiting : (List.replicate 65535 0x7e#8).length ≤ 65535 ∧ ([] : List Byte).length ≤ 65535 := by
  simp only [List.length_replicate]
  exact ⟨Nat.le_refl _, Nat.zero_le _⟩

theorem witness_DecodedBytesReencode :
    decode 0 (.payload .tx .md5) [0x38#8, 0x00#8, 0x59#8, 0x47#8, 0x75#8]
      = .ok (.pMd5Tx 0x38#8 0x00#8 [] [] 0x59#8 0x47#8 0x75#8, []) ∧
    decode 4 (.frame .rx) [0xaa#8, 0x00#8, 0x00#8] = .ok (.frame .rx [], []) := by decide

/-- Codes next to a legal one, and the last. -/
theorem witness_IllegalCodesWriteIssueStatusOnly :
    (issuing live 0xff#32).moves = .writeReg 0#8 0xff#32 :: [] ∧ (0xff#32).setWidth 8 ∉ commandCodes ∧
    0x06#8 ∉ commandCodes ∧ 0x0f#8 ∉ commandCodes ∧ 0x13#8 ∉ commandCodes ∧ 0x23#8 ∉ commandCodes := by decide +kernel

theorem witness_StepRunsDecodedCommand :
    (issuing live 0x22#32).moves = .writeReg 0#8 0x22#32 :: [] ∧
    decode (issuing live 0x22#32).cfg.nfrag .cmd [(0x22#32).setWidth 8] = .ok (.cryptRx, []) := by decide +kernel

theorem witness_StepRunsCommandInFlight_tx :
    ∃ t, exec .frameWr { (sending live .frameWr 0#8 0#8 []).advance [] with phase := .completion } = .next t ∧
      (sending live .frameWr 0#8 0#8 []).moves = .tx :: [] ∧
      (sending live .frameWr 0#8 0#8 []).txFlight = some (txCmd .frameWr 0#8 0#17) := ⟨_, rfl, rfl, rfl⟩

theorem witness_StepRunsCommandInFlight_rx :
    ∃ t, exec .frameRd { (receiving live .frameRd []).advance [] with phase := .completion } = .next t ∧
      (receiving live .frameRd []).moves = .rx :: [] ∧
      (receiving live .frameRd []).rxFlight = some (rxCmd .frameRd) := ⟨_, rfl, rfl, rfl⟩

theorem witness_StepRunsCommandInFlight_idle :
    ({ live with moves := [.tx] }.moves = .tx :: [] ∧ live.txFlight = none) ∧
    ({ live with moves := [.rx] }.moves = .rx :: [] ∧ live.rxFlight = none) := ⟨⟨rfl, rfl⟩, rfl, rfl⟩

/-- The completion of SEND: class None; class Normal at the largest body; class Md5 at the largest body. -/
theorem witness_SendRunsTheSelectedFormat :
    (txAt live .send 0x10#8 0#17).phase = .completion ∧
    (txAt live .send 0x10#8 0#17).txFlight = some (txCmd .send 0x10#8 0#17) ∧
    classify (txAt live .send 0x10#8 0#17).cfg .tx 0x10#8 = .none ∧
    classify (txAt keyed .send 0x02#8 65530#17).cfg .tx 0x02#8 = .normal ∧
    (txAt keyed .send 0x02#8 65530#17).cipherValid = true ∧ (txAt keyed .send 0x02#8 65530#17).keyLen ≠ 0#8 ∧
    rawKey9.bytes = (txAt keyed .send 0x02#8 65530#17).memRead .keyRaw 0 (txAt keyed .send 0x02#8 65530#17).keyLen.toNat ∧
    5 + (65530#17).toNat ≤ 65535 ∧
    classify (txAt named .send 0x38#8 65526#17).cfg .tx 0x38#8 = .md5 ∧
    (txAt named .send 0x38#8 65526#17).cipherValid = true ∧ (txAt named .send 0x38#8 65526#17).sktValid = true ∧
    5 + (txAt named .send 0x38#8 65526#17).cfg.nfrag + (65526#17).toNat ≤ 65535 := by decide +kernel

/-- T6, T62: FRAME.RD of an empty payload, RECV of a payload of one byte. -/
theorem witness_RxCommandsRunTheDecodedFormat :
    (rxAt live .frameRd [0xaa#8, 0x00#8, 0x00#8] false).phase = .completion ∧
    decode 4 (.frame .rx) [0xaa#8, 0x00#8, 0x00#8] = .ok (.frame .rx [], []) ∧
    (rxCmd .frameRd).cmd = .frameRd ∧ (rxCmd .recv).cmd = .recv ∧
    (rxAt live .recv [0xaa#8, 0x00#8, 0x01#8, 0x10#8] false).rxs = some (stream [0xaa#8, 0x00#8, 0x01#8, 0x10#8] false) ∧
    decode 4 (.frame .rx) [0xaa#8, 0x00#8, 0x01#8, 0x10#8] = .ok (.frame .rx [0x10#8], []) ∧
    decode 4 (.payload .rx (classify live.cfg .rx 0x10#8)) [0x10#8] = .ok (.pPlain .rx 0x10#8 [], []) := by decide +kernel

/-- Busy with both kinds of command, no session, a dead session, the length at 65536 and 65537, a key loaded or not. -/
theorem witness_IssueFollowsItsCases :
    live.phase = .issue ∧ 0x06#8 ∉ commandCodes ∧ 0xff#8 ∉ commandCodes ∧
    live.txBusy = false ∧ live.rxBusy = false ∧ (sending live .send 0#8 0#8 []).txBusy = true ∧
    (receiving live .recv []).rxBusy = true ∧ live.sess = .live ∧ State.reset.sess = .none ∧
    { live with sess := .dead }.sess = .dead ∧ 65536 < ({ live with txbLen := 65537#17 } : State).txbLen.toNat ∧
    ({ live with txbLen := 65536#17 } : State).txbLen.toNat ≤ 65536 ∧ keyed.cipherValid = true ∧ live.cipherValid = false := by
  decide +kernel

theorem witness_SessOpenStartsAFreshSession : live.txFlight = none ∧ live.rxFlight = none := ⟨rfl, rfl⟩

/-- A first and a second SESS.KEY, with no key byte and with 255. -/
theorem witness_SessKeyLoadsSeedSaltAndKey :
    live.txFlight = none ∧ live.rxFlight = none ∧ live.sess = .live ∧ live.cipherValid = false ∧ keyed.cipherValid = true ∧
    keyed.txFlight = none ∧ keyed.rxFlight = none ∧ keyed.sess = .live ∧ live.pbLen.toNat = 0 ∧
    ({ live with pbLen := 255#8 } : State).pbLen.toNat = 255 := by decide +kernel

theorem witness_SktGenStoresTheTable : live.txFlight = none ∧ live.rxFlight = none ∧ live.sess = .live := ⟨rfl, rfl, rfl⟩

/-- The largest frame and one byte more. -/
theorem witness_FrameWrAppendsOneFrame :
    (txAt live .frameWr 0#8 65535#17).phase = .completion ∧
    (txAt live .frameWr 0#8 65535#17).txFlight = some (txCmd .frameWr 0#8 65535#17) ∧ (65535#17).toNat ≤ 65535 ∧
    (txAt live .frameWr 0#8 65536#17).txFlight = some (txCmd .frameWr 0#8 65536#17) ∧ 65535 < (65536#17).toNat := by
  decide +kernel

theorem witness_SendOfClassNoneIsVerbatim :
    (txAt live .send 0x10#8 65534#17).phase = .completion ∧
    (txAt live .send 0x10#8 65534#17).txFlight = some (txCmd .send 0x10#8 65534#17) ∧
    classify (txAt live .send 0x10#8 65534#17).cfg .tx 0x10#8 = .none ∧ (65534#17).toNat ≤ 65534 ∧
    (txAt live .send 0x10#8 65535#17).txFlight = some (txCmd .send 0x10#8 65535#17) ∧ 65534 < (65535#17).toNat := by
  decide +kernel

theorem witness_SendOfClassNormal :
    (txAt keyed .send 0x02#8 65530#17).phase = .completion ∧
    (txAt keyed .send 0x02#8 65530#17).txFlight = some (txCmd .send 0x02#8 65530#17) ∧
    classify (txAt keyed .send 0x02#8 65530#17).cfg .tx 0x02#8 = .normal ∧
    (txAt keyed .send 0x02#8 65530#17).cipherValid = true ∧ (txAt keyed .send 0x02#8 65530#17).keyLen ≠ 0#8 ∧
    rawKey9.bytes = (txAt keyed .send 0x02#8 65530#17).memRead .keyRaw 0 (txAt keyed .send 0x02#8 65530#17).keyLen.toNat ∧
    5 + (65530#17).toNat ≤ 65535 := by decide +kernel

theorem witness_SendOfClassMd5 :
    (txAt named .send 0x38#8 65526#17).phase = .completion ∧
    (txAt named .send 0x38#8 65526#17).txFlight = some (txCmd .send 0x38#8 65526#17) ∧
    classify (txAt named .send 0x38#8 65526#17).cfg .tx 0x38#8 = .md5 ∧
    (txAt named .send 0x38#8 65526#17).cipherValid = true ∧ (txAt named .send 0x38#8 65526#17).sktValid = true ∧
    5 + (txAt named .send 0x38#8 65526#17).cfg.fragOffsets.length + (65526#17).toNat ≤ 65535 := by decide +kernel

/-- T66, T67: no key, no table, and one byte too many of either class. -/
theorem witness_SendErrorsAdvanceNothing :
    (txAt live .send 0x02#8 1#17).phase = .completion ∧
    (txAt live .send 0x02#8 1#17).txFlight = some (txCmd .send 0x02#8 1#17) ∧
    classify live.cfg .tx 0x02#8 = .normal ∧ (txAt live .send 0x02#8 1#17).cipherValid = false ∧
    classify keyed.cfg .tx 0x38#8 = .md5 ∧ keyed.cipherValid = true ∧ keyed.sktValid = false ∧
    keyed.keyLen ≠ 0#8 ∧ 65535 < 5 + (65531#17).toNat ∧
    named.cipherValid = true ∧ named.sktValid = true ∧ 65535 < 5 + named.cfg.fragOffsets.length + (65527#17).toNat := by
  decide +kernel

/-- No cipher, an empty key, and a key. -/
theorem witness_CryptTxTransformsTheBuffer :
    (txAt live .cryptTx 0#8 5#17).phase = .completion ∧
    (txAt live .cryptTx 0#8 5#17).txFlight = some (txCmd .cryptTx 0#8 5#17) ∧
    (txAt live .cryptTx 0#8 5#17).cipherValid = false ∧ ({ keyed with keyLen := 0#8 } : State).keyLen = 0#8 ∧
    (txAt keyed .cryptTx 0#8 0#17).cipherValid = true ∧ (txAt keyed .cryptTx 0#8 0#17).keyLen ≠ 0#8 ∧
    rawKey9.bytes = (txAt keyed .cryptTx 0#8 0#17).memRead .keyRaw 0 9 := by decide +kernel

theorem witness_FrameRdStoresThePayload :
    (rxAt live .frameRd [0xAA#8, 0x00#8, 0x01#8, 0x7e#8] false).phase = .completion ∧
    (rxAt live .frameRd [0xAA#8, 0x00#8, 0x01#8, 0x7e#8] false).rxFlight = some (rxCmd .frameRd) ∧
    (rxAt live .frameRd [0xAA#8, 0x00#8, 0x01#8, 0x7e#8] false).rxs = some (stream [0xAA#8, 0x00#8, 0x01#8, 0x7e#8] false) ∧
    (stream [0xAA#8, 0x00#8, 0x01#8, 0x7e#8] false).unread = 0xAA#8 :: 0x00#8 :: 0x01#8 :: ([0x7e#8] ++ []) ∧
    [0x7e#8].length = (0x00#8).toNat * 256 + (0x01#8).toNat := by decide +kernel

/-- Two bytes, and a header that asks for one byte more than there is. -/
theorem witness_ReadsHoldWithoutAWholeFrame :
    (rxAt live .recv [0xAA#8, 0x00#8] false).phase = .completion ∧
    (rxAt live .recv [0xAA#8, 0x00#8] false).rxFlight = some (rxCmd .recv) ∧
    (rxAt live .recv [0xAA#8, 0x00#8] false).rxs = some (stream [0xAA#8, 0x00#8] false) ∧
    (stream [0xAA#8, 0x00#8] false).closed = false ∧ (stream [0xAA#8, 0x00#8] false).unread.length < 3 ∧
    (stream [0xAA#8, 0x00#8, 0x01#8] false).unread = 0xAA#8 :: 0x00#8 :: 0x01#8 :: [] ∧
    ([] : List Byte).length < (0x00#8).toNat * 256 + (0x01#8).toNat := by decide +kernel

/-- T8, T10, T13, T14. -/
theorem witness_ReadErrorsKillTheSession :
    (rxAt live .recv [0xab#8, 0x00#8, 0x01#8] false).phase = .completion ∧
    (rxAt live .recv [0xab#8, 0x00#8, 0x01#8] false).rxFlight = some (rxCmd .recv) ∧
    (stream [0xab#8, 0x00#8, 0x01#8] false).unread = 0xab#8 :: 0x00#8 :: 0x01#8 :: [] ∧ 0xab#8 ≠ 0xAA#8 ∧
    (stream [] true).closed = true ∧ (stream [] true).unread = [] ∧
    (stream [0x00#8, 0x00#8] true).unread ≠ [] ∧ (stream [0x00#8, 0x00#8] true).unread.length < 3 ∧
    (stream [0xAA#8, 0x00#8, 0x01#8] true).unread = 0xAA#8 :: 0x00#8 :: 0x01#8 :: [] ∧
    ([] : List Byte).length < (0x00#8).toNat * 256 + (0x01#8).toNat := by decide +kernel

/-- T62: a payload of one byte. -/
theorem witness_RecvOfClassNoneKeepsTheBody :
    (rxAt live .recv [0xAA#8, 0x00#8, 0x01#8, 0x10#8] false).phase = .completion ∧
    (rxAt live .recv [0xAA#8, 0x00#8, 0x01#8, 0x10#8] false).rxFlight = some (rxCmd .recv) ∧
    (rxAt live .recv [0xAA#8, 0x00#8, 0x01#8, 0x10#8] false).rxs = some (stream [0xAA#8, 0x00#8, 0x01#8, 0x10#8] false) ∧
    (stream [0xAA#8, 0x00#8, 0x01#8, 0x10#8] false).unread = 0xAA#8 :: 0x00#8 :: 0x01#8 :: 0x10#8 :: ([] ++ []) ∧
    1 + ([] : List Byte).length = (0x00#8).toNat * 256 + (0x01#8).toNat ∧ classify live.cfg .rx 0x10#8 = .none := by
  decide +kernel

/-- T61: the shortest encrypted payload, of class Normal and of class Md5. -/
theorem witness_RecvOfEncryptedClassDecrypts :
    ∀ opc ∈ [0x02#8, 0x05#8],
      let bytes := [0xAA#8, 0x00#8, 0x05#8, opc, 0x00#8, 0x70#8, 0x23#8, 0x74#8]
      (rxAt named .recv bytes false).phase = .completion ∧ (rxAt named .recv bytes false).rxFlight = some (rxCmd .recv) ∧
      (rxAt named .recv bytes false).rxs = some (stream bytes false) ∧
      (stream bytes false).unread =
        0xAA#8 :: 0x00#8 :: 0x05#8 :: opc :: 0x00#8 :: ([] ++ 0x70#8 :: 0x23#8 :: 0x74#8 :: []) ∧
      5 + ([] : List Byte).length = (0x00#8).toNat * 256 + (0x05#8).toNat ∧
      classify named.cfg .rx opc ≠ .none ∧ named.cipherValid = true ∧ named.keyLen ≠ 0#8 ∧ named.sktValid = true ∧
      rawKey9.bytes = (rxAt named .recv bytes false).memRead .keyRaw 0 9 := by
  decide +kernel

/-- T63, T64, T65: lengths 0, 4 and 5. -/
theorem witness_RecvErrorsLeaveThePayload :
    (rxAt live .recv [0xAA#8, 0x00#8, 0x00#8] false).phase = .completion ∧
    (rxAt live .recv [0xAA#8, 0x00#8, 0x00#8] false).rxFlight = some (rxCmd .recv) ∧
    (stream [0xAA#8, 0x00#8, 0x00#8] false).unread = 0xAA#8 :: 0x00#8 :: 0x00#8 :: ([] ++ []) ∧
    (stream [0xAA#8, 0x00#8, 0x04#8, 0x02#8, 0x00#8, 0x11#8, 0x22#8] false).unread
      = 0xAA#8 :: 0x00#8 :: 0x04#8 :: ([0x02#8, 0x00#8, 0x11#8, 0x22#8] ++ []) ∧
    classify live.cfg .rx 0x02#8 ≠ .none ∧ [0x02#8, 0x00#8, 0x11#8, 0x22#8].length < 5 ∧
    5 ≤ [0x02#8, 0x00#8, 0x11#8, 0x22#8, 0x33#8].length ∧ live.cipherValid = false := by decide +kernel

theorem witness_CryptRxTransformsTheWindow :
    (rxAt live .cryptRx [] false).phase = .completion ∧ (rxAt live .cryptRx [] false).rxFlight = some (rxCmd .cryptRx) ∧
    (rxAt live .cryptRx [] false).cipherValid = false ∧ ({ keyed with keyLen := 0#8 } : State).keyLen = 0#8 ∧
    (rxAt keyed .cryptRx [] false).cipherValid = true ∧ (rxAt keyed .cryptRx [] false).keyLen ≠ 0#8 ∧
    rawKey9.bytes = (rxAt keyed .cryptRx [] false).memRead .keyRaw 0 9 := by decide +kernel

theorem witness_OutboundWireFormatsAppendTheirFrame :
    (List.replicate 65535 0#8 : List Byte).length ≤ 65535 ∧ (List.replicate 65534 0#8 : List Byte).length ≤ 65534 ∧
    (List.replicate 65530 0#8 : List Byte).length ≤ 65530 ∧
    (List.replicate 4 0#8 : List Byte).length = vectorConfig.nfrag ∧
    5 + (List.replicate 4 0#8 : List Byte).length + (List.replicate 65526 0#8 : List Byte).length ≤ 65535 := by
  simp only [List.length_replicate]
  exact ⟨Nat.le_refl _, Nat.le_refl _, Nat.le_refl _, rfl, by decide⟩

/-- An empty frame, a payload of one byte, and the shortest encrypted payload. -/
theorem witness_InboundWireFormatsAreTaken :
    (rxAt live .frameRd (frameBytes []) false).rxs = some (stream (frameBytes []) false) ∧
    (rxAt live .frameRd (frameBytes []) false).rxFlight = some (rxCmd .frameRd) ∧
    (stream (frameBytes []) false).unread = frameBytes [] ++ [] ∧
    (stream (frameBytes [0x10#8]) false).unread = frameBytes (0x10#8 :: []) ++ [] ∧ classify live.cfg .rx 0x10#8 = .none ∧
    (stream (frameBytes [0x05#8, 0x00#8, 0x70#8, 0x23#8, 0x74#8]) false).unread
      = frameBytes (0x05#8 :: 0x00#8 :: ([] ++ [0x70#8, 0x23#8, 0x74#8])) ++ [] ∧
    classify named.cfg .rx 0x05#8 = .md5 ∧ named.cipherValid = true ∧ named.sktValid = true := by decide +kernel

/-- The last byte of PB and of TXB. -/
theorem witness_HostWriteThenReadReturnsTheBytes :
    { live with moves := [.memWrite .pb 254 [1#8], .memRead .pb 254 1] }.moves
      = .memWrite .pb 254 [1#8] :: .memRead .pb 254 [1#8].length :: [] ∧ 254 + [1#8].length ≤ Space.pb.size ∧
    { live with moves := [.memWrite .txb 65535 [1#8], .memRead .txb 65535 1] }.moves
      = .memWrite .txb 65535 [1#8] :: .memRead .txb 65535 [1#8].length :: [] ∧
    65535 + [1#8].length ≤ Space.txb.size ∧ live.txFlight = none := by decide +kernel

/-- The last index of a space that holds a value, both ends of the ROMs, a busy buffer, the first index beyond. -/
theorem witness_HostAccessRules :
    (255 + [0#8].length ≤ Space.size .saltRx ∧ (keyed.ram .saltRx).byte? 255 = some 0x80#8 ∧ keyed.cipherValid = true) ∧
    (8 + [0#8].length ≤ keyed.keyLen.toNat ∧ (keyed.ram .keyRaw).byte? 8 = some 9#8) ∧
    (named.sktValid = true ∧ (named.ram .skt).byte? 833 = some 0x62#8) ∧
    ({ live with rxb := [(0, 7#8)], rxbLen := 1#16 }.rxFlight = none ∧
      0 + [7#8].length ≤ { live with rxb := [(0, 7#8)], rxbLen := 1#16 }.rxbLen.toNat) ∧
    { live with moves := [.memRead .encTx (255#8).toNat 1] }.moves = .memRead .encTx (255#8).toNat 1 :: [] ∧
    { live with moves := [.memRead .encRx (0#8).toNat 1] }.moves = .memRead .encRx (0#8).toNat 1 :: [] ∧
    (255 + [0#8].length ≤ Space.size .saltTx ∧ Space.saltTx ≠ .pb ∧ Space.saltTx ≠ .txb) ∧
    (65535 + [0#8].length ≤ 65536 ∧ (txAt live .send 0#8 0#17).txFlight ≠ none) ∧
    (65534 + 1 ≤ 65535 ∧ (rxAt live .recv [] false).rxFlight ≠ none) ∧
    (Space.size .rxb < 65535 + [0#8].length) ∧ (Space.size .rxb < 65534 + 2) := by decide +kernel

theorem witness_TxCommandsWriteOnlyTxb :
    (∃ t, exec .cryptTx (txAt keyed .cryptTx 0#8 1#17) = .next t ∧ t.txb.length = 1) ∧
    (∃ t, exec .send (txAt live .send 0x10#8 0#17) = .next t ∧ t.txClass = .none) ∧
    classify (txAt live .send 0x10#8 0#17).cfg .tx 0x10#8 = .none ∧
    (∃ t, exec .frameWr (txAt live .frameWr 0#8 1#17) = .next t ∧ t.txStatus = .ok) :=
  ⟨exec_some (·.txb.length) (by decide +kernel), exec_some (·.txClass) (by decide +kernel), by decide +kernel,
    exec_some (·.txStatus) (by decide +kernel)⟩

/-- A frame read, a held one, and CRYPT.RX. -/
theorem witness_RxCommandsWriteOnlyRxb :
    (∃ t, exec .recv (rxAt live .recv [0xAA#8, 0x00#8, 0x01#8, 0x10#8] false) = .next t ∧ t.rxbLen = 1#16) ∧
    (∃ t, exec .frameRd (rxAt live .frameRd [0xAA#8] false) = .next t ∧ t.rxbLen = 0#16) ∧
    (∀ p, (stream [0xAA#8] false).frameRead ≠ .payload p) ∧
    (∃ t, exec .cryptRx (rxAt keyed .cryptRx [] false) = .next t ∧ t.rxStatus = .ok) :=
  ⟨exec_some (·.rxbLen) (by decide +kernel), exec_some (·.rxbLen) (by decide +kernel), fun p h => (by cases h),
    exec_some (·.rxStatus) (by decide +kernel)⟩

/-- Seeds 9 and 10, and 255. -/
theorem witness_SaltBuildWrapsAndZeroesUnknownSeeds :
    (9#8).toNat < 10 ∧ 10 ≤ (10#8).toNat ∧ 10 ≤ (255#8).toNat := by decide

/-- The first and the last appended block. -/
theorem witness_SktGenIsAlways1024HexDigits : (1 ≤ 1 ∧ 1 ≤ 31) ∧ (1 ≤ 31 ∧ 31 ≤ 31) := by decide

theorem witness_GeneratorIgnoresItsTopBit : (1#32).toNat % 2 ^ 31 = (0x80000001#32).toNat % 2 ^ 31 := by decide

theorem witness_FrameWrThenFrameRdRoundTrips :
    (txAt live .frameWr 0#8 65535#17).phase = .completion ∧
    (txAt live .frameWr 0#8 65535#17).txFlight = some (txCmd .frameWr 0#8 65535#17) ∧
    (txAt live .frameWr 0#8 65535#17).txs = some [] ∧ (65535#17).toNat ≤ 65535 ∧
    (rxAt live .frameRd [] false).phase = .completion ∧ (rxAt live .frameRd [] false).rxFlight = some (rxCmd .frameRd) := by
  decide +kernel

/-- The two ends of the loop, with what both classes need in common. -/
theorem witness_SendThenRecvRestoresTheBody :
    let z : Memory := cellsAt 0 (List.replicate 256 0#8)
    let s := txAt { named with saltTx := z, saltRx := z } .send 0x02#8 65530#17
    let r := rxAt { named with saltTx := z, saltRx := z } .recv [] false
    (s.phase = .completion ∧ s.txs = some [] ∧ r.phase = .completion ∧ r.rxFlight = some (rxCmd .recv)) ∧
    s.cipherValid = true ∧ r.cipherValid = true ∧ (∀ si, r.salt .rx si = s.salt .tx si) ∧
    r.cfg.trailerOrder = s.cfg.trailerOrder :=
  ⟨⟨rfl, rfl, rfl, rfl⟩, rfl, rfl, by decide +kernel, rfl⟩

/-- Class Normal at the largest body, with the same raw key; class Md5 at the largest body, with the same table. -/
theorem witness_SendThenRecvRestoresTheBody_classes :
    (classify named.cfg .tx 0x02#8 = .normal ∧ classify named.cfg .rx 0x02#8 = .normal ∧ named.keyLen ≠ 0#8 ∧
      5 + 0 + (65530#17).toNat ≤ 65535) ∧
    (classify named.cfg .tx 0x38#8 = .md5 ∧ classify named.cfg .rx 0x38#8 = .md5 ∧ named.sktValid = true ∧
      5 + named.cfg.nfrag + (65526#17).toNat ≤ 65535) := by decide +kernel

theorem witness_SendThenRecvRestoresTheBody_keys :
    let s := txAt named .send 0x02#8 65530#17
    let r := rxAt named .recv [] false
    (r.keyLen = s.keyLen ∧ ∀ i < s.keyLen.toNat, r.byteAt .keyRaw i = s.byteAt .keyRaw i) ∧
    ∀ i < 1024, r.byteAt .skt i = s.byteAt .skt i := ⟨⟨rfl, fun _ _ => rfl⟩, fun _ _ => rfl⟩

theorem witness_TxAndRxCompletionsCommute :
    (rxAt (txAt keyed .send 0x02#8 5#17) .recv [0xab#8, 0#8, 0#8] false).phase = .completion ∧
    (rxAt (txAt keyed .send 0x02#8 5#17) .recv [0xab#8, 0#8, 0#8] false).txFlight = some (txCmd .send 0x02#8 5#17) ∧
    (rxAt (txAt keyed .send 0x02#8 5#17) .recv [0xab#8, 0#8, 0#8] false).rxFlight = some (rxCmd .recv) := ⟨rfl, rfl, rfl⟩

/-- A session, live or dead, with no key, any TX command of a legal length and any RX command at the empty window,
meets the invariant. -/
theorem session_Inv (x : Session) (hx : x ≠ .none) (ms : List Move) (f : Option TxFlight) (g : Option RxFlight)
    (q : RxStream) (hf : ∀ c, f = some c → c.len.toNat ≤ txbCap) (hg : ∀ c, g = some c → c.off = 0#16 ∧ c.blen = 0#16) :
    State.Inv { live with sess := x, moves := ms, txFlight := f, rxFlight := g, rxs := some q } := by
  refine ⟨?_, rfl, fun h => absurd h hx, fun _ => ⟨rfl, rfl⟩, fun _ => ⟨rfl, rfl⟩, ?_, ?_, ?_, Nat.le_refl 0, ?_, hf, hg⟩
  · intro sp
    cases sp <;> first | exact rom_memory_ok _ | exact ⟨List.Pairwise.nil, by simp [live, State.reset, State.ram]⟩
  · intro h; cases h
  · intro h; cases h
  · intro h; cases h
  · intro i hi; exact absurd hi (by simp [live, State.reset])

/-- SEND without a key, with RECV in flight. -/
theorem witness_EveryStepKeepsTheInvariant :
    ∃ s t : State, s.Inv ∧ step s = .next t ∧ t.txStatus = .noKeyMaterial := by
  obtain ⟨t, ht, h⟩ := after_some (f := (·.txStatus)) (x := .noKeyMaterial) (s := { live with
    sess := .live, moves := [.tx], txFlight := some (txCmd .send 0x02#8 65536#17), rxFlight := some (rxCmd .recv)
    rxs := some (stream [] false) }) (by decide +kernel)
  refine ⟨_, t, session_Inv _ (by decide) _ _ _ _ ?_ ?_, ht, h⟩
  · intro c hc; cases hc; decide
  · intro c hc; cases hc; exact ⟨rfl, rfl⟩

/-- A frame that is too long for FRAME.WR kills the session. -/
theorem witness_SessionStateTransitions_tx :
    ∃ s t : State, s.Inv ∧ step s = .next t ∧ t.sess = .dead ∧ s.sess = .live := by
  let s : State := { live with
    sess := .live, moves := [.tx], txFlight := some (txCmd .frameWr 0#8 65536#17), rxFlight := none
    rxs := some (stream [] false) }
  let u : State := { s.advance [] with phase := .completion }
  have hu : u.frameWrComplete (txCmd .frameWr 0#8 65536#17) = u.raise .tx .payloadTooLarge := by
    rw [State.frameWrComplete, State.frameWrite, if_pos]
    rw [State.memRead_length]
    decide
  refine ⟨s, { u.raise .tx .payloadTooLarge with phase := .issue },
    session_Inv _ (by decide) _ _ _ _ (by intro c hc; cases hc; decide) (by intro c hc; cases hc), ?_, rfl, rfl⟩
  change complete .frameWr (s.advance []) = _
  have he : exec .frameWr { s.advance [] with phase := .completion } = .next (u.raise .tx .payloadTooLarge) :=
    (exec_frameWr_completion rfl rfl).trans (congrArg _ hu)
  rw [complete, he]

/-- By RX a bad magic; by the host SESS.OPEN and SESS.CLOSE. -/
theorem witness_SessionStateTransitions_rx :
    ∃ s t : State, s.Inv ∧ step s = .next t ∧ t.sess = .dead ∧ s.sess = .live := by
  obtain ⟨t, ht, h⟩ := after_some (f := (·.sess)) (x := .dead) (s := { live with
    sess := .live, moves := [.rx], txFlight := none, rxFlight := some (rxCmd .recv)
    rxs := some (stream [0xab#8, 0#8, 0#8] false) }) (by decide +kernel)
  exact ⟨_, t, session_Inv _ (by decide) _ _ _ _ (by intro c hc; cases hc) (by intro c hc; cases hc; exact ⟨rfl, rfl⟩), ht, h,
    rfl⟩

theorem witness_SessionStateTransitions_host :
    (∃ s t : State, s.Inv ∧ step s = .next t ∧ t.sess = .live ∧ s.sess = .dead) ∧
    (∃ s t : State, s.Inv ∧ step s = .next t ∧ t.sess = .none ∧ s.sess = .live) := by
  constructor
  · obtain ⟨t, ht, h⟩ := after_some (f := (·.sess)) (x := .live) (s := { live with
      sess := .dead, moves := [.writeReg 0#8 0x02#32], txFlight := none, rxFlight := none, rxs := some (stream [] false) })
      (by decide +kernel)
    exact ⟨_, t, session_Inv _ (by decide) _ _ _ _ (by intro c hc; cases hc) (by intro c hc; cases hc), ht, h, rfl⟩
  · obtain ⟨t, ht, h⟩ := after_some (f := (·.sess)) (x := .none) (s := { live with
      sess := .live, moves := [.writeReg 0#8 0x05#32], txFlight := none, rxFlight := none, rxs := some (stream [] false) })
      (by decide +kernel)
    exact ⟨_, t, session_Inv _ (by decide) _ _ _ _ (by intro c hc; cases hc) (by intro c hc; cases hc), ht, h, rfl⟩

/-- SESS.CLOSE on NONE, with the invariant, is met by the state after it. -/
theorem witness_SessCloseEndsTheSession :
    live.txFlight = none ∧ live.rxFlight = none ∧
    State.Inv { State.reset with tick := 1 } ∧ { State.reset with tick := 1 }.sess = .none := by
  refine ⟨rfl, rfl, ⟨?_, rfl, ?_, ?_, ?_, ?_, ?_, ?_, ?_, ?_, ?_, ?_⟩, rfl⟩
  · intro sp
    cases sp <;> first | exact rom_memory_ok _ | exact ⟨List.Pairwise.nil, by simp [State.reset, State.ram]⟩
  · intro _
    exact ⟨rfl, rfl, rfl, rfl, rfl, rfl, rfl, rfl, ⟨rfl, rfl, rfl, rfl, rfl, rfl, rfl, rfl, rfl, rfl, rfl, rfl, rfl⟩⟩
  · intro h; exact absurd rfl h
  · intro _; exact ⟨rfl, rfl⟩
  · intro h; cases h
  · intro h; cases h
  · intro h; cases h
  · exact Nat.le_refl 0
  · intro i hi; exact absurd hi (by simp [State.reset])
  · intro f hf; cases hf
  · intro f hf; cases hf

/-- One encrypted SEND, from the counters at 0 and 1. -/
theorem witness_EveryStepKeepsOrdAndLcgInStep :
    (sending keyed .send 0x02#8 0#8 hello).phase = .issue ∧ (sending keyed .send 0x02#8 0#8 hello).countsSends ∧
    ∃ t, step (sending keyed .send 0x02#8 0#8 hello) = .next t ∧ t.ord = 1#8 :=
  ⟨rfl, ⟨0, rfl, rfl⟩, after_some (by decide +kernel)⟩

/-- An encrypted SEND moves the ordinal; so does SESS.OPEN after one. -/
theorem witness_OnlyEncryptedSendsAdvanceTheOrdinal :
    (∃ t, step (sending keyed .send 0x02#8 0#8 hello) = .next t ∧ t.ord = 1#8) ∧
    (sending keyed .send 0x02#8 0#8 hello).ord = 0#8 ∧
    (∃ t, step (issuing { keyed with ord := 255#8 } 0x02#32) = .next t ∧ t.ord = 0#8) ∧
    (issuing { keyed with ord := 255#8 } 0x02#32).phase = .issue :=
  ⟨after_some (by decide +kernel), rfl, after_some (by decide +kernel), rfl⟩

/-- SKT.GEN after SESS.KEY would do as well; here a SEND of class None in a keyed session. -/
theorem witness_KeyMaterialIsImmutableInASession :
    keyed.phase = .issue ∧ keyed.cipherValid = true ∧
    ∃ t, step (sending keyed .send 0x10#8 0#8 hello) = .next t ∧ t.cipherValid = true :=
  ⟨rfl, rfl, after_some (by decide +kernel)⟩

theorem witness_ParametersAndBuffersHaveOneWriter :
    live.phase = .issue ∧ ∃ t, step { live with moves := [.memWrite .pb 0 [1#8]] } = .next t ∧ t.pb = [(0, 1#8)] :=
  ⟨rfl, after_some (by decide +kernel)⟩

/-- Nothing scheduled; a move that is allowed and one that is not. -/
theorem witness_StepsStopOnlyOnDisallowedMoves :
    live.moves = [] ∧ { live with moves := [.memRead .rxb 65534 1] }.moves = .memRead .rxb 65534 1 :: [] ∧
    live.allows (.memRead .rxb 65534 1) = true ∧ live.allows (.memRead .rxb 65534 2) = false ∧
    (receiving live .recv []).allows (.memRead .rxb 0 1) = false ∧ State.reset.allows .close = false := by decide +kernel

theorem witness_EnvironmentFeedsAndClosesRxs :
    live.rxs = some (stream [] false) ∧ { live with moves := [.feed [1#8]] }.moves = .feed [1#8] :: [] ∧
    (stream [] false).closed = false ∧ { live with moves := [.close] }.moves = .close :: [] := ⟨rfl, rfl, rfl, rfl⟩

end Sys2Proof.Tests
end

section
/-! The obligations of 30_encoding: frames on a stream (R91), command codes (R110, R113), and the two encrypted packets
that SEND puts in a frame (R103 to R105). -/

namespace Sys2Proof

/-! ### The decoder and the encoder -/

/-- Every command has its code in the table (30_encoding R110); a wire format counts as 0, the code of NOP. -/
theorem commandCode_mem_commandCodes (i : Instr) : commandCode i ∈ Machine.commandCodes := by
  cases i <;> simp [commandCode, Machine.commandCodes]

theorem decodeCommand_error_of_not_mem {code : Byte} (h : code ∉ Machine.commandCodes) :
    ∃ e, decodeCommand code = .error e := by
  cases hd : decodeCommand code with
  | error e => exact ⟨e, rfl⟩
  | ok i => exact absurd (decodeCommand_code code hd ▸ commandCode_mem_commandCodes i) h

theorem decode_frame_ok {bs p rest : List Byte} (nfrag : Nat) (d : Dir) (h : decodeFrame bs = .ok (p, rest)) :
    decode nfrag (.frame d) bs = .ok (.frame d p, rest) := by
  simp [decode, h, Except.map]

/-- The frame of a payload by the payload's length, the low length byte reduced as 30_encoding R91 writes it. -/
theorem frameBytes_of_length {p : List Byte} {n : Nat} (h : p.length = n) :
    frameBytes p = magic :: BitVec.ofNat 8 (n / 256) :: BitVec.ofNat 8 (n % 256) :: p := by
  rw [ofNat_mod_256, ← h, frameBytes]

end Sys2Proof

namespace Sys2Proof.Machine

variable {s : State}

/-! ### A write of CMD (30_encoding R113) -/

theorem step_writeCmd {v : Word} {rest : List Move} (h : s.moves = .writeReg 0#8 v :: rest) :
    step s = issueCommand (v.setWidth 8) (s.advance rest) := by
  simp [step_cons h, runMove]

theorem issueCommand_illegal {code : Byte} (h : code ∉ commandCodes) :
    issueCommand code s = .next (s.setIssue .illegalCommand) := by
  obtain ⟨e, he⟩ := decodeCommand_error_of_not_mem h
  simp [issueCommand, decode, he, Except.map]

/-! ### SEND of an encrypted class -/

/-- Bits 30:16 of the generator as arithmetic (45_key_derivation R241). -/
theorem specialKeySeed_eq (st : Word) : specialKeySeed st = st.toNat / 65536 % 32768 := by
  have hmask : (0x7FFF#32).toNat = 2 ^ 15 - 1 := rfl
  rw [specialKeySeed, BitVec.toNat_and, BitVec.toNat_ushiftRight, hmask, Nat.and_two_pow_sub_one_eq_mod,
    Nat.shiftRight_eq_div_pow]

/-- The outbound `a` with the constants of 00_scope R10 written out (45_key_derivation R242). -/
theorem outboundA_eq (st : Word) : outboundA st = BitVec.ofNat 16 (st.toNat / 65536 % 32768 % 65277 + 256) := by
  rw [outboundA, specialKeySeed_eq]

/-- P-NORM-TX byte by byte (30_encoding R103). -/
theorem State.encryptedPayload_normal (opc ord : Byte) (cbody : List Byte) (a : Half) (b : Byte) :
    s.encryptedPayload .normal opc ord cbody a b =
      let t := trailerPack s.cfg.trailerOrder a b
      opc :: ord :: (cbody ++ [t.1, t.2.1, t.2.2]) := rfl

/-- P-MD5-TX byte by byte (30_encoding R104, R105). -/
theorem State.encryptedPayload_md5 (opc ord : Byte) (cbody : List Byte) (a : Half) (b : Byte) :
    s.encryptedPayload .md5 opc ord cbody a b =
      let t := trailerPack s.cfg.trailerOrder a b
      opc :: ord :: (cbody ++ hashFrag s.cfg (opc :: ord :: cbody) ++ [t.1, t.2.1, t.2.2]) := rfl

/-- An encrypted payload is its overhead and its body (46_send_recv R270). -/
theorem State.encryptedPayload_length (cls : Cls) (opc ord : Byte) (cbody : List Byte) (a : Half) (b : Byte) :
    (s.encryptedPayload cls opc ord cbody a b).length = s.overhead cls + cbody.length := by
  cases cls <;> simp [State.encryptedPayload, State.overhead, encode] <;> omega

/-- The completion of SEND where nothing is raised: the class is encrypted, its key is there and the packet fits. The
header gives the payload's length as overhead and body (46_send_recv R270, R272). -/
theorem exec_send_encrypted {f : TxFlight} {cls : Cls} {key : Key} {a : Half} {c : List Byte}
    (hp : s.phase = .completion) (hf : s.txFlight = some f) (hcls : classify s.cfg .tx f.opc = cls) (hne : cls ≠ .none)
    (ha : outboundA (lcgNext s.lcg) = a) (hk : s.effectiveKey cls a bTx = some key)
    (hn : s.overhead cls + f.len.toNat ≤ maxPayload)
    (hc : crypt (s.memRead .txb 0 f.len.toNat) s.ord key (s.salt .tx) = c) :
    exec .send s = .next
      { s with
        txClass := cls, txb := s.txb.store 0 c, lcg := lcgNext s.lcg, txA := a, txB := bTx, ord := s.ord + 1#8
        txs := s.txs.map (· ++
          magic :: BitVec.ofNat 8 ((s.overhead cls + f.len.toNat) / 256) ::
            BitVec.ofNat 8 ((s.overhead cls + f.len.toNat) % 256) :: s.encryptedPayload cls f.opc s.ord c a bTx)
        txStatus := .ok, txFlight := none } := by
  subst hcls ha hc
  rw [exec_send_completion hp hf, ← frameBytes_of_length (by simp [State.encryptedPayload_length])]
  obtain ⟨hnone, -⟩ | ⟨-, hnokey, -⟩ | ⟨-, key', hkey', ⟨hbig, -⟩ | ⟨-, hsend⟩⟩ := State.sendComplete_cases (s := s) f
  · exact absurd hnone hne
  · exact absurd (hk.symm.trans hnokey) (Option.some_ne_none key)
  · omega
  · obtain rfl : key = key' := Option.some.inj (hk.symm.trans hkey')
    rw [hsend]

/-! ### The obligations -/

/-- Settles O7: the length bytes give the payload's length back, so the decoder cuts there. -/
theorem framesAreSelfDelimiting : Obligations.FramesAreSelfDelimiting := by
  intro nfrag d p rest h
  apply decode_frame_ok
  rw [ofNat_mod_256]
  exact decodeFrame_frameBytes p rest h

/-- Settles O10: a byte outside the table decodes to no command, and the write of CMD then raises IllegalCommand. -/
theorem illegalCodesWriteIssueStatusOnly : Obligations.IllegalCodesWriteIssueStatusOnly := by
  intro s v rest hm hv
  rw [step_writeCmd hm, issueCommand_illegal hv, State.setIssue]

/-- Settles O23: the encrypted SEND under the raw key, its payload written out as P-NORM-TX. -/
theorem sendOfClassNormal : Obligations.SendOfClassNormal := by
  intro s f hp hf hcls hcv _ hn key hkey n st a c t
  have hk : s.effectiveKey .normal a bTx = some key := State.effectiveKey_eq_some.2 ⟨by decide, hcv, nofun, hkey⟩
  have hsend := exec_send_encrypted (c := c) hp hf hcls (by decide) (outboundA_eq _) hk hn rfl
  rw [State.encryptedPayload_normal] at hsend
  exact hsend

/-- Settles O24: the encrypted SEND under the sampled key, its payload written out as P-MD5-TX. -/
theorem sendOfClassMd5 : Obligations.SendOfClassMd5 := by
  intro s f hp hf hcls hcv hsv hn n st a key hkey c frag t len
  have hk : s.effectiveKey .md5 a bTx = some key :=
    State.effectiveKey_eq_some.2 ⟨by decide, hcv, fun _ => hsv, hkey⟩
  have hsend := exec_send_encrypted (c := c) hp hf hcls (by decide) (outboundA_eq _) hk hn rfl
  rw [State.encryptedPayload_md5] at hsend
  exact hsend

end Sys2Proof.Machine
end

section
/-! The obligations of 40_frame_codec: FRAME.RD on a whole frame (R130, R131) and FRAME.WR (R135, R136). -/

namespace Sys2Proof.Machine

variable {s : State}

/-! ### A whole frame at the front of RXS (40_frame_codec R130) -/

/-- Taking a frame leaves the bytes after it. -/
theorem RxStream.take_frame {q : RxStream} {m hi lo : Byte} {p rest : List Byte}
    (h : q.unread = m :: hi :: lo :: (p ++ rest)) :
    q.take (3 + p.length) = { q with unread := rest, pos := q.pos + (3 + p.length) } := by
  have hdrop : q.unread.drop (3 + p.length) = rest := by simp [h, ← List.drop_drop]
  rw [RxStream.take, hdrop]

theorem State.takeFrame_eq {q : RxStream} {m hi lo : Byte} {p rest : List Byte} (hq : s.rxs = some q)
    (h : q.unread = m :: hi :: lo :: (p ++ rest)) :
    s.takeFrame p = { s with rxs := some { q with unread := rest, pos := q.pos + (3 + p.length) } } := by
  rw [State.takeFrame, State.rxTake, hq, Option.map_some, RxStream.take_frame h]

/-- FRAME.RD and RECV go on with the payload once the frame has left RXS, whatever they then do with it. -/
theorem State.frameReadThen_whole {q : RxStream} {hi lo : Byte} {p rest : List Byte} (hq : s.rxs = some q)
    (h : q.unread = magic :: hi :: lo :: (p ++ rest)) (hl : p.length = frameLength hi lo)
    (k : State → List Byte → State) :
    s.frameReadThen k = k { s with rxs := some { q with unread := rest, pos := q.pos + (3 + p.length) } } p := by
  have hread : q.frameRead = .payload p :=
    RxStream.frameRead_payload (rest := rest) (by rw [h, decodeFrame_whole hi lo p rest hl])
  simp only [State.frameReadThen, hq, Option.map_some, hread, State.takeFrame_eq hq h]

/-! ### The obligations -/

/-- Settles O27: the read finds the whole frame, and what follows stores its payload. -/
theorem frameRdStoresThePayload : Obligations.FrameRdStoresThePayload := by
  intro s f q hi lo p rest hp hf hq hu hl
  rw [exec_frameRd_completion hp hf, State.frameReadThen_whole hq hu hl, State.deliverRaw_eq]

/-- Settles O21: `frame_write` of the `n` latched bytes of TXB, which fit a frame exactly when `n` is at most 65535. -/
theorem frameWrAppendsOneFrame : Obligations.FrameWrAppendsOneFrame := by
  intro s f hp hf n
  have hlen : (s.memRead .txb 0 n).length = n := State.memRead_length s .txb 0 n
  rw [exec_frameWr_completion hp hf, State.frameWrComplete]
  constructor
  · intro hn
    rw [State.frameWrite_ok _ (hlen.trans_le hn), frameBytes_of_length hlen]
  · intro hn
    rw [State.frameWrite_tooLarge _ (hlen.symm ▸ hn)]

end Sys2Proof.Machine
end

section
/-! The obligations of 42_crypt: the keystream form of `crypt` (R171) and its involution (R172), and the commands
CRYPT.TX (R175) and CRYPT.RX (R176). -/

namespace Sys2Proof.Machine

/-! ### The keystream (42_crypt R171) -/

/-- One step of `crypt` is one XOR with the keystream, whose byte does not depend on the buffer's. -/
theorem cryptByte_eq_xor_keystream (ord : Byte) (key : Key) (salt : Byte → Byte) (i : Nat) (b : Byte) :
    cryptByte ord key salt i b = b ^^^ keystream ord key salt i := by
  unfold cryptByte keystream
  by_cases h : saltIndex key.bytes.length i = ord
  · simp only [h, ne_eq, not_true_eq_false, if_false, BitVec.xor_zero]
    ac_rfl
  · simp only [h, ne_eq, not_false_eq_true, if_true]
    ac_rfl

/-- A second step at the same index takes the first one back: `x ^ ks(i) ^ ks(i) = x` (42_crypt R172). -/
theorem cryptByte_cryptByte (ord : Byte) (key : Key) (salt : Byte → Byte) (i : Nat) (b : Byte) :
    cryptByte ord key salt i (cryptByte ord key salt i b) = b := by
  rw [cryptByte_eq_xor_keystream, cryptByte_eq_xor_keystream, BitVec.xor_assoc, BitVec.xor_self, BitVec.xor_zero]

/-- The key repeats with its length as the period. -/
theorem Key.cyclic_eq_getD (key : Key) (i : Nat) : key.cyclic i = key.bytes.getD (i % key.bytes.length) 0#8 :=
  List.getElem_eq_getD _

theorem saltIndex_eq (k i : Nat) : saltIndex k i = BitVec.ofNat 8 (i / k % 256) := by
  rw [ofNat_mod_256, saltIndex]

/-! ### The obligations -/

/-- Settles O41: the model's XORs regroup to one XOR with `keystream`, here written out from the bytes of the key. -/
theorem cryptXorsAKeystream : Obligations.CryptXorsAKeystream := by
  intro buf key ord salt i k si
  have hstep : cryptByte ord key salt i =
      (· ^^^ (key.bytes.getD (i % k) 0#8 ^^^ salt si ^^^ (if si ≠ ord then salt ord else 0#8))) := by
    funext b
    rw [cryptByte_eq_xor_keystream, keystream, Key.cyclic_eq_getD, saltIndex_eq]
  rw [crypt_getElem?, hstep]

/-- Settles O40: byte by byte, since each step of `crypt` takes itself back. -/
theorem cryptIsItsOwnInverse : Obligations.CryptIsItsOwnInverse := by
  intro buf key ord salt
  refine ⟨List.ext_getElem? fun i => ?_, crypt_length ..⟩
  have hstep : cryptByte ord key salt i ∘ cryptByte ord key salt i = id :=
    funext (cryptByte_cryptByte ord key salt i)
  rw [crypt_getElem?, crypt_getElem?, Option.map_map, hstep, Option.map_id_apply]

/-- Settles O26: the completion refuses exactly where there is no raw key, and uses the raw key where there is one. -/
theorem cryptTxTransformsTheBuffer : Obligations.CryptTxTransformsTheBuffer := by
  intro s f hp hf
  rw [exec_cryptTx_completion hp hf]
  obtain ⟨hnone, hdone⟩ | ⟨key, hkey, hdone⟩ := State.cryptTxComplete_cases (s := s) f
  · refine ⟨fun _ => by rw [hdone], fun key' hkey' hcv _ => ?_⟩
    exact absurd (hnone.symm.trans (State.rawKey_eq_some.2 ⟨hcv, hkey'⟩)) nofun
  · refine ⟨fun hno => absurd (hkey.symm.trans (State.rawKey_eq_none.2 hno)) nofun, fun key' hkey' hcv _ => ?_⟩
    obtain rfl : key = key' := Option.some.inj (hkey.symm.trans (State.rawKey_eq_some.2 ⟨hcv, hkey'⟩))
    rw [hdone]
    rfl

/-- Settles O33: as for CRYPT.TX, on the window latched at issue. -/
theorem cryptRxTransformsTheWindow : Obligations.CryptRxTransformsTheWindow := by
  intro s f hp hf
  rw [exec_cryptRx_completion hp hf]
  obtain ⟨hnone, hdone⟩ | ⟨key, hkey, hdone⟩ := State.cryptRxComplete_cases (s := s) f
  · refine ⟨fun _ => by rw [hdone], fun key' hkey' hcv _ => ?_⟩
    exact absurd (hnone.symm.trans (State.rawKey_eq_some.2 ⟨hcv, hkey'⟩)) nofun
  · refine ⟨fun hno => absurd (hkey.symm.trans (State.rawKey_eq_none.2 hno)) nofun, fun key' hkey' hcv _ => ?_⟩
    obtain rfl : key = key' := Option.some.inj (hkey.symm.trans (State.rawKey_eq_some.2 ⟨hcv, hkey'⟩))
    rw [hdone]
    rfl

end Sys2Proof.Machine
end

section
/-! The obligation of 43_md5_hex: the padding of MD5 (R192). -/

namespace Sys2Proof.Machine

/-! ### The length field and the number of zero bytes (43_md5_hex R192) -/

/-- Byte `k` of the little-endian form is the number divided by `256 ^ k`, cut to eight bits. -/
theorem leBytes_eq_map_range (n v : Nat) :
    leBytes n v = (List.range n).map fun k => BitVec.ofNat 8 (v / 256 ^ k) := by
  induction n generalizing v with
  | zero => rfl
  | succ n ih =>
    have hdigit (k : Nat) : v / 256 / 256 ^ k = v / 256 ^ (k + 1) := by
      rw [Nat.div_div_eq_div_mul, Nat.pow_succ']
    rw [leBytes, ih, List.range_succ_eq_map]
    simp [hdigit]

theorem md5Zeros_le (m : Nat) : md5Zeros m ≤ 63 := by
  unfold md5Zeros
  omega

theorem md5Zeros_congruent (m : Nat) : (m + 1 + md5Zeros m) % 64 = 56 := by
  unfold md5Zeros
  omega

theorem md5Pad_length (s : List Byte) : (md5Pad s).length = s.length + 1 + md5Zeros s.length + 8 := by
  simp only [md5Pad, List.length_append, List.length_singleton, List.length_replicate, leBytes_length]

/-- The length field fills the last eight bytes of a block, since it starts at 56 modulo 64. -/
theorem md5Pad_length_mod (s : List Byte) : (md5Pad s).length % 64 = 0 := by
  have hstart := md5Zeros_congruent s.length
  rw [md5Pad_length]
  omega

/-! ### The obligation -/

/-- Settles O44: the number of zero bytes is `md5Zeros`, and the length field is written out digit by digit. -/
theorem md5PaddingFillsBlocks : Obligations.Md5PaddingFillsBlocks := by
  intro s
  refine ⟨md5Zeros s.length, md5Zeros_le _, md5Zeros_congruent _, ?_, md5Pad_length_mod s⟩
  rw [md5Pad, leBytes_eq_map_range]

end Sys2Proof.Machine
end

section
/-! The obligations of 44_special_key_table: the table that `skt_gen` makes (R220, R221) and SKT.GEN, which stores it
(R225). -/

namespace Sys2Proof.Machine

variable {s : State}

/-! ### Hexadecimal digits (44_special_key_table R221) -/

theorem hexDigit_isHexDigit {n : Nat} (h : n < 16) : Byte.isHexDigit (hexDigit n) := by
  simp only [Byte.isHexDigit, hexDigit, BitVec.toNat_ofNat]
  split
  · left; omega
  · right; omega

/-- Both digits of a byte are those of a nibble, so all of `hex` is digits. -/
theorem hex_isHexDigit (bs : List Byte) : ∀ d ∈ hex bs, Byte.isHexDigit d := by
  induction bs with
  | nil => simp [hex]
  | cons b bs ih =>
    have hb : b.toNat < 256 := b.isLt
    rw [hex, List.forall_mem_cons, List.forall_mem_cons]
    exact ⟨hexDigit_isHexDigit (by omega), hexDigit_isHexDigit (by omega), ih⟩

theorem sktAppend_isHexDigit (j : Nat) {t : List Byte} (h : ∀ d ∈ t, Byte.isHexDigit d) :
    ∀ d ∈ sktAppend j t, Byte.isHexDigit d := by
  induction j generalizing t with
  | zero => exact h
  | succ j ih => exact ih (List.forall_mem_append.2 ⟨h, hex_isHexDigit _⟩)

/-! ### The blocks of the table (44_special_key_table R220) -/

theorem hex_md5_length (bs : List Byte) : (hex (md5 bs)).length = 32 := by
  rw [hex_length, md5_length]

/-- The appends leave what stands in the table. -/
theorem prefix_sktAppend (j : Nat) (t : List Byte) : t <+: sktAppend j t := by
  induction j generalizing t with
  | zero => exact List.prefix_rfl
  | succ j ih => exact (List.prefix_append t _).trans (ih _)

theorem take_sktAppend (j : Nat) (t : List Byte) : (sktAppend j t).take t.length = t :=
  (List.prefix_iff_eq_take.1 (prefix_sktAppend j t)).symm

/-- The block that append `k` adds is the digest of all that stands before it. -/
theorem sktAppend_block {j k : Nat} (hk : k < j) (t : List Byte) :
    ((sktAppend j t).drop (t.length + 32 * k)).take 32 = hex (md5 ((sktAppend j t).take (t.length + 32 * k))) := by
  induction j generalizing t k with
  | zero => omega
  | succ j ih =>
    cases k with
    | zero =>
      obtain ⟨rest, hrest⟩ := prefix_sktAppend j (t ++ hex (md5 t))
      have hblock : (hex (md5 t) ++ rest).take 32 = hex (md5 t) := List.take_left' (hex_md5_length t)
      rw [Nat.mul_zero, Nat.add_zero, take_sktAppend, sktAppend, ← hrest, List.append_assoc, List.drop_left, hblock]
    | succ k =>
      have hstart : t.length + 32 * (k + 1) = (t ++ hex (md5 t)).length + 32 * k := by
        rw [List.length_append, hex_md5_length]
        omega
      rw [sktAppend, hstart]
      exact ih (by omega) (t ++ hex (md5 t))

@[simp] theorem sktGen_length (seed : List Byte) : (sktGen seed).length = 1024 := by
  rw [sktGen, sktAppend_length, hex_md5_length, sktRounds]

/-! ### SKT.GEN (44_special_key_table R225) -/

/-- A read of a range that was just stored gives the stored bytes. -/
theorem State.memRead_of_store {sp : Space} {m : Memory} {i : Nat} {bs : List Byte} {n : Nat} (h : s.ram sp = m.store i bs)
    (hn : bs.length = n) : s.memRead sp i n = bs := by
  subst hn
  refine List.ext_getElem (State.memRead_length ..) fun k hk hk' => ?_
  have hheld := Memory.store_held m i bs (i + k) (Nat.le_add_right i k) (Nat.add_lt_add_left hk' i)
  rw [State.memRead_getElem, State.byteAt_of_byte? (h ▸ hheld)]
  simp only [Nat.add_sub_cancel_left]

theorem exec_sktGen (s : State) :
    exec .sktGen s = .next (s.ifIdle <| s.ifLive
      { s with
        skt := s.skt.store 0 (sktGen (s.memRead .pb 0 s.pbLen.toNat)), sktValid := true, issueStatus := .ok }) := rfl

/-! ### The obligations -/

/-- Settles O43: `skt_gen` starts from the first block, and each of its 31 appends adds one more. -/
theorem sktGenIsAlways1024HexDigits : Obligations.SktGenIsAlways1024HexDigits := by
  intro seed
  have hfirst := hex_md5_length (hex (md5 seed))
  refine ⟨sktGen_length seed, sktAppend_isHexDigit _ (hex_isHexDigit _), ?_, fun j hj1 hj31 => ?_⟩
  · have htake := take_sktAppend sktRounds (hex (md5 (hex (md5 seed))))
    rwa [hfirst] at htake
  · have hk : j - 1 < sktRounds := Nat.sub_one_lt_of_le hj1 hj31
    have hblock := sktAppend_block hk (hex (md5 (hex (md5 seed))))
    have hstart : 32 + 32 * (j - 1) = 32 * j := by omega
    rwa [hfirst, hstart] at hblock

/-- Settles O19: idle and LIVE let the command run, and the 1024 bytes read are those of the store. -/
theorem sktGenStoresTheTable : Obligations.SktGenStoresTheTable := by
  intro s htx hrx hlive t
  constructor
  · rw [exec_sktGen, State.ifIdle_idle _ htx hrx, State.ifLive_live _ hlive]
  · exact State.memRead_of_store (m := s.skt) rfl (sktGen_length _)

end Sys2Proof.Machine
end

section
/-! The obligations of 45_key_derivation: the trailer's two functions (R255, R257) and the sampled key (R245, R246). -/

namespace Sys2Proof.Machine

/-! ### The trailer (45_key_derivation R255, R257) -/

/-- XOR with a constant is its own inverse (R257). -/
theorem xor_mask_xor_mask {w : Nat} (x m : BitVec w) : x ^^^ m ^^^ m = x := by
  rw [BitVec.xor_assoc, BitVec.xor_self, BitVec.xor_zero]

/-- Each order reads the three bytes back where it put them, so what is left is the masks and the halves of `a`. -/
theorem trailerUnpack_trailerPack (o : TrailerOrder) (a : Half) (b : Byte) :
    trailerUnpack o (trailerPack o a b).1 (trailerPack o a b).2.1 (trailerPack o a b).2.2 = (a, b) := by
  have ha : (a ^^^ maskA).extractLsb' 8 8 ++ (a ^^^ maskA).extractLsb' 0 8 ^^^ maskA = a := by
    rw [BitVec.extractLsb'_append_extractLsb', xor_mask_xor_mask]
  have hb : b ^^^ maskB ^^^ maskB = b := xor_mask_xor_mask b maskB
  cases o <;> exact Prod.ext ha hb

/-- In every order the bytes joined into `a` come out again as its low and its high byte. -/
theorem trailerPack_trailerUnpack (o : TrailerOrder) (t0 t1 t2 : Byte) :
    trailerPack o (trailerUnpack o t0 t1 t2).1 (trailerUnpack o t0 t1 t2).2 = (t0, t1, t2) := by
  have hlo (hi lo : Byte) : (hi ++ lo : Half).extractLsb' 0 8 = lo := BitVec.extractLsb'_append_eq_right
  have hhi (hi lo : Byte) : (hi ++ lo : Half).extractLsb' 8 8 = hi := BitVec.extractLsb'_append_eq_left
  cases o <;> simp only [trailerPack, trailerUnpack, xor_mask_xor_mask, hlo, hhi]

/-- The mask of `a` is 0x70 on its low byte and 0x74 on its high byte (R255). -/
theorem trailerPack_loBHi (a : Half) (b : Byte) :
    trailerPack .loBHi a b = (a.extractLsb' 0 8 ^^^ 0x70#8, b ^^^ 0x23#8, a.extractLsb' 8 8 ^^^ 0x74#8) := by
  have hlo : maskA.extractLsb' 0 8 = 0x70#8 := rfl
  have hhi : maskA.extractLsb' 8 8 = 0x74#8 := rfl
  simp only [trailerPack, BitVec.extractLsb'_xor, hlo, hhi, maskB]

/-! ### The sampled key (45_key_derivation R245, R246) -/

/-- The index with the outbound `b` in the closed form of R246. -/
theorem key9Index_outbound (a : Half) (i : Nat) : key9Index a 100#8 i = (9 * i * i + 10000 * i + a.toNat) % 1024 := by
  have hclosed : i * (9 * i + 100 * 100) = 9 * i * i + 10000 * i := by
    rw [Nat.mul_add, Nat.mul_left_comm, Nat.mul_assoc, Nat.mul_comm i (100 * 100)]
  rw [← hclosed]
  rfl

/-! ### The obligations -/

/-- Settles O45: in every order each function undoes the other, masks included. -/
theorem trailerUnpackInvertsPack : Obligations.TrailerUnpackInvertsPack :=
  ⟨trailerUnpack_trailerPack, trailerPack_trailerUnpack, trailerPack_loBHi⟩

/-- Settles O48: byte `i` is the table's at `key9Index`, which has R246's closed form at the outbound `b`. -/
theorem sampledKeyPositions : Obligations.SampledKeyPositions := by
  intro t a b
  refine ⟨key9_length t a b, fun i hi => ⟨key9_getElem? t a b i hi, ?_⟩⟩
  rintro rfl
  rw [key9_getElem? t a 100#8 i hi, key9Index_outbound]

end Sys2Proof.Machine
end

section
/-! The obligations of 46_send_recv: SEND of class None (R274) and SEND's errors (R271, R273), RECV in each of its cases
(R280 to R284), and the loop-back of an encrypted packet (R287). -/

namespace Sys2Proof.Machine

variable {s : State}

/-! ### SEND (46_send_recv R270 to R274) -/

theorem State.sendComplete_none {f : TxFlight} (hcls : classify s.cfg .tx f.opc = .none) :
    s.sendComplete f = { s with txClass := .none }.frameWrite (f.opc :: s.memRead .txb 0 f.len.toNat) := by
  obtain ⟨-, hsend⟩ | ⟨hne, -⟩ | ⟨hne, -⟩ := State.sendComplete_cases (s := s) f
  · exact hsend
  · exact absurd hcls hne
  · exact absurd hcls hne

theorem State.overhead_eq (cls : Cls) : s.overhead cls = 5 + if cls = .md5 then s.cfg.nfrag else 0 := by
  cases cls <;> rfl

/-! ### RECV of a whole frame (46_send_recv R280) -/

theorem exec_recv_whole {f : RxFlight} {q : RxStream} {hi lo : Byte} {p rest : List Byte}
    (hp : s.phase = .completion) (hf : s.rxFlight = some f) (hq : s.rxs = some q)
    (hu : q.unread = magic :: hi :: lo :: (p ++ rest)) (hl : p.length = frameLength hi lo) :
    exec .recv s = .next ((s.takeFrame p).deliverClassified p) := by
  rw [exec_recv_completion hp hf, State.frameReadThen_whole hq hu hl, State.takeFrame_eq hq hu]

theorem encryptedFields_length (opc ord t0 t1 t2 : Byte) (c : List Byte) :
    (opc :: ord :: (c ++ [t0, t1, t2])).length = 5 + c.length := by
  simp only [List.length_cons, List.length_append, List.length_nil]
  omega

/-- RECV of a frame the encoder writes. -/
theorem exec_recv_frameBytes {f : RxFlight} {q : RxStream} {p rest : List Byte} (hp : s.phase = .completion)
    (hf : s.rxFlight = some f) (hq : s.rxs = some q) (hu : q.unread = frameBytes p ++ rest) (hl : p.length ≤ 65535) :
    exec .recv s = .next ((s.takeFrame p).deliverClassified p) :=
  exec_recv_whole hp hf hq hu (frameLength_ofNat _ hl).symm

theorem State.deliverClassified_nil :
    s.deliverClassified [] = { s with
      rxb := s.rxb.store 0 [], rxbLen := 0#16, rxOff := 0#16, rxBlen := 0#16
      rxStatus := .emptyPayload, rxFlight := none, sess := .dead } :=
  State.raise_rx_fatal .emptyPayload rfl

theorem State.deliverClassified_none {opc : Byte} {body : List Byte} (hcls : classify s.cfg .rx opc = .none) :
    s.deliverClassified (opc :: body) = { s with
      rxb := s.rxb.store 0 (opc :: body), rxbLen := BitVec.ofNat 16 (opc :: body).length
      rxOpc := opc, rxClass := .none, rxOff := 1#16, rxBlen := BitVec.ofNat 16 body.length
      rxStatus := .ok, rxFlight := none } := by
  simp only [State.deliverClassified, hcls, if_true]
  rfl

/-- What an error that RECV raises after it has named the opcode leaves behind, but for the session (46_send_recv R281,
R284). -/
def State.undecrypted (s : State) (opc : Byte) (p : List Byte) (e : Status) : State :=
  { s with
    rxb := s.rxb.store 0 p, rxbLen := BitVec.ofNat 16 p.length, rxOpc := opc, rxClass := classify s.cfg .rx opc
    rxOff := 0#16, rxBlen := BitVec.ofNat 16 p.length, rxStatus := e, rxFlight := none }

theorem State.deliverClassified_short {opc : Byte} {body : List Byte} (hne : classify s.cfg .rx opc ≠ .none)
    (hlen : (opc :: body).length < 5) :
    s.deliverClassified (opc :: body) =
      { s.undecrypted opc (opc :: body) .shortEncryptedPayload with sess := .dead } := by
  simp only [State.deliverClassified, if_neg hne, (splitEncrypted_none _).2 hlen]
  exact State.raise_rx_fatal .shortEncryptedPayload rfl

theorem State.deliverClassified_noKey {opc : Byte} {body : List Byte} (hne : classify s.cfg .rx opc ≠ .none)
    (hlen : 5 ≤ (opc :: body).length) (hkey : ∀ a b, s.effectiveKey (classify s.cfg .rx opc) a b = none) :
    s.deliverClassified (opc :: body) = s.undecrypted opc (opc :: body) .noKeyMaterial := by
  cases hsplit : splitEncrypted (opc :: body) with
  | none => exact absurd ((splitEncrypted_none _).1 hsplit) (Nat.not_lt.2 hlen)
  | some parts =>
    simp only [State.deliverClassified, if_neg hne, hsplit, hkey]
    exact State.raise_rx_refusal .noKeyMaterial rfl

theorem State.deliverClassified_key {opc ord t0 t1 t2 : Byte} {c : List Byte} {a : Half} {b : Byte} {key : Key}
    (hne : classify s.cfg .rx opc ≠ .none) (hab : trailerUnpack s.cfg.trailerOrder t0 t1 t2 = (a, b))
    (hkey : s.effectiveKey (classify s.cfg .rx opc) a b = some key) :
    s.deliverClassified (opc :: ord :: (c ++ [t0, t1, t2])) = { s with
      rxb := (s.rxb.store 0 (opc :: ord :: (c ++ [t0, t1, t2]))).store 2 (crypt c ord key (s.salt .rx))
      rxbLen := BitVec.ofNat 16 (opc :: ord :: (c ++ [t0, t1, t2])).length
      rxOpc := opc, rxClass := classify s.cfg .rx opc, rxOrd := ord, rxA := a, rxB := b
      rxOff := 2#16, rxBlen := BitVec.ofNat 16 c.length, rxStatus := .ok, rxFlight := none } := by
  simp only [State.deliverClassified, if_neg hne, splitEncrypted_append, hab, hkey]
  rfl

/-! ### The obligations on one command -/

/-- Settles O22: `frame_write` of opcode and body, which fit a frame exactly when the body is at most 65534 bytes. -/
theorem sendOfClassNoneIsVerbatim : Obligations.SendOfClassNoneIsVerbatim := by
  intro s f hp hf hcls n
  have hlen : (f.opc :: s.memRead .txb 0 n).length = 1 + n := by
    rw [List.length_cons, State.memRead_length, Nat.add_comm]
  rw [exec_send_completion hp hf, State.sendComplete_none hcls]
  constructor
  · intro hn
    rw [State.frameWrite_ok _ (by rw [hlen]; omega), frameBytes_of_length hlen]
  · intro hn
    rw [State.frameWrite_tooLarge _ (by rw [hlen]; omega)]

/-- Settles O25: SEND has no key exactly where its class is not ready, and tests the size only once it has one. -/
theorem sendErrorsAdvanceNothing : Obligations.SendErrorsAdvanceNothing := by
  rintro s f cls hp hf rfl hne ready extra
  rw [exec_send_completion hp hf]
  have hready := State.effectiveKey_eq_none (s := s) (outboundA (lcgNext s.lcg)) bTx hne
  obtain ⟨hnone, -⟩ | ⟨-, hnokey, hsend⟩ | ⟨-, key, hkey, hsize⟩ := State.sendComplete_cases (s := s) f
  · exact absurd hnone hne
  · exact ⟨fun _ => by rw [hsend], fun hr => absurd hr (hready.1 hnokey)⟩
  · refine ⟨fun hr => absurd (hkey.symm.trans (hready.2 hr)) nofun, fun _ hn => ?_⟩
    obtain ⟨-, hsend⟩ | ⟨hfits, -⟩ := hsize
    · rw [hsend]
    · rw [State.overhead_eq] at hfits
      exact absurd hfits (Nat.not_le.2 hn)

/-- Settles O30: the payload is opcode and body, and class None stops after the window is set. -/
theorem recvOfClassNoneKeepsTheBody : Obligations.RecvOfClassNoneKeepsTheBody := by
  intro s f q hi lo opc body rest hp hf hq hu hl hcls
  have hlen : (opc :: body).length = 1 + body.length := Nat.add_comm ..
  rw [exec_recv_whole (p := opc :: body) hp hf hq hu (hlen.trans hl),
    State.deliverClassified_none (s := s.takeFrame _) hcls, State.takeFrame_eq hq hu, hlen, ← Nat.add_assoc 3]

/-- Settles O31: the payload comes apart into its fields, and the key of class, `a` and `b` is there. -/
theorem recvOfEncryptedClassDecrypts : Obligations.RecvOfEncryptedClassDecrypts := by
  rintro s f q hi lo opc ord t0 t1 t2 c rest cls hp hf hq hu hl rfl hne hcv - hskt ab key hkey plain
  have hlen := encryptedFields_length opc ord t0 t1 t2 c
  have hu' : q.unread = magic :: hi :: lo :: (opc :: ord :: (c ++ [t0, t1, t2]) ++ rest) := by
    rw [hu, List.cons_append, List.cons_append, List.append_assoc]
    rfl
  have heff : s.effectiveKey (classify s.cfg .rx opc) ab.1 ab.2 = some key :=
    State.effectiveKey_eq_some.2 ⟨hne, hcv, hskt, hkey⟩
  rw [exec_recv_whole hp hf hq hu' (hlen.trans hl), State.deliverClassified_key (s := s.takeFrame _) hne rfl heff,
    State.takeFrame_eq hq hu', hlen, ← Nat.add_assoc 3]
  rfl

/-- Settles O32: no opcode, no room for the fields, no key, in the order in which RECV tests them. -/
theorem recvErrorsLeaveThePayload : Obligations.RecvErrorsLeaveThePayload := by
  intro s f q hi lo p rest hp hf hq hu hl stored
  rw [exec_recv_whole hp hf hq hu hl]
  have htake := State.takeFrame_eq hq hu
  refine ⟨?_, ?_⟩
  · rintro rfl
    rw [State.deliverClassified_nil, htake]
    rfl
  · rintro opc body rfl hne cls ready
    refine ⟨fun hshort => ?_, fun hlong hr => ?_⟩
    · rw [State.deliverClassified_short (s := s.takeFrame _) hne hshort, htake]
      rfl
    · have hnokey (a : Half) (b : Byte) : s.effectiveKey cls a b = none := (State.effectiveKey_eq_none a b hne).2 hr
      rw [State.deliverClassified_noKey (s := s.takeFrame _) hne hlong hnokey, htake]
      rfl

/-! ### The loop-back (46_send_recv R287) -/

/-- `crypt` commutes with keeping the first `n` bytes. -/
theorem crypt_take (buf : List Byte) (ord : Byte) (key : Key) (salt : Byte → Byte) (n : Nat) :
    (crypt buf ord key salt).take n = crypt (buf.take n) ord key salt := by
  refine List.ext_getElem? fun i => ?_
  rw [crypt_getElem?, List.getElem?_take, List.getElem?_take, crypt_getElem?]
  split <;> rfl

theorem State.memRead_take (s : State) (sp : Space) (i : Nat) {n m : Nat} (h : n ≤ m) :
    (s.memRead sp i m).take n = s.memRead sp i n := by
  rw [State.memRead, ← List.map_take, List.take_range, Nat.min_eq_left h, State.memRead]

theorem State.memRead_congr {r s : State} {sp : Space} {n : Nat} (h : ∀ k < n, r.byteAt sp k = s.byteAt sp k) :
    r.memRead sp 0 n = s.memRead sp 0 n := by
  refine List.map_congr_left fun k hk => ?_
  rw [Nat.zero_add]
  exact h k (List.mem_range.1 hk)

/-- P-NORM-TX and P-MD5-TX are P-ENC-RX with the hash fragments, if any, behind the ciphertext (30_encoding R103, R104,
R106). -/
theorem State.encryptedPayload_eq_append (s : State) (cls : Cls) (opc ord : Byte) (c : List Byte) (a : Half)
    (b : Byte) :
    let t := trailerPack s.cfg.trailerOrder a b
    ∃ frag : List Byte, frag.length = (if cls = .md5 then s.cfg.nfrag else 0) ∧
      s.encryptedPayload cls opc ord c a b = opc :: ord :: (c ++ frag ++ [t.1, t.2.1, t.2.2]) := by
  intro t
  cases cls with
  | none | normal => exact ⟨[], rfl, by rw [List.append_nil]; rfl⟩
  | md5 => exact ⟨hashFrag s.cfg (opc :: ord :: c), hashFrag_length .., rfl⟩

/-- The ciphertext with fragments behind it decrypts to the body with other bytes behind it. -/
theorem crypt_append_crypt_take {body : List Byte} {n : Nat} (hn : body.length = n) (frag : List Byte) (ord : Byte)
    (key : Key) (salt : Byte → Byte) : (crypt (crypt body ord key salt ++ frag) ord key salt).take n = body := by
  rw [crypt_take, List.take_left' ((crypt_length ..).trans hn), (cryptIsItsOwnInverse body key ord salt).1]

/-- Two machines with the same key of a class select the same key under the same `a` and `b` (45_key_derivation
R247). -/
theorem State.effectiveKey_congr {r s : State} {cls : Cls} {a : Half} {b : Byte} (hcv : r.cipherValid = s.cipherValid)
    (hraw : cls = .normal → r.keyLen = s.keyLen ∧ ∀ i < s.keyLen.toNat, r.byteAt .keyRaw i = s.byteAt .keyRaw i)
    (hskt : cls = .md5 → r.sktValid = s.sktValid ∧ ∀ i < 1024, r.byteAt .skt i = s.byteAt .skt i) :
    r.effectiveKey cls a b = s.effectiveKey cls a b := by
  cases cls with
  | none => rfl
  | normal =>
    obtain ⟨hlen, hbytes⟩ := hraw rfl
    simp only [State.effectiveKey, State.rawKey, hcv, hlen, State.memRead_congr hbytes]
  | md5 =>
    obtain ⟨hvalid, hbytes⟩ := hskt rfl
    simp only [State.effectiveKey, State.sampledKey, hcv, hvalid, key9_congr hbytes]

/-- The frame of an encrypted SEND: opcode, ordinal, ciphertext, the hash fragments of class Md5, and the trailer
(46_send_recv R270, R272). -/
theorem exec_send_encrypted_frame {f : TxFlight} {cls : Cls} {key : Key} {a : Half} (hp : s.phase = .completion)
    (hf : s.txFlight = some f) (hcls : classify s.cfg .tx f.opc = cls) (hne : cls ≠ .none)
    (ha : outboundA (lcgNext s.lcg) = a) (hkey : s.effectiveKey cls a bTx = some key)
    (hn : s.overhead cls + f.len.toNat ≤ maxPayload) :
    let c := crypt (s.memRead .txb 0 f.len.toNat) s.ord key (s.salt .tx)
    let t := trailerPack s.cfg.trailerOrder a bTx
    ∃ (u : State) (frag : List Byte), frag.length = (if cls = .md5 then s.cfg.nfrag else 0) ∧
      exec .send s = .next u ∧ u.txA = a ∧
      u.txs = s.txs.map (· ++ frameBytes (f.opc :: s.ord :: (c ++ frag ++ [t.1, t.2.1, t.2.2]))) := by
  intro c t
  obtain ⟨frag, hfrag, hpayload⟩ := s.encryptedPayload_eq_append cls f.opc s.ord c a bTx
  have hlen : (s.encryptedPayload cls f.opc s.ord c a bTx).length = s.overhead cls + f.len.toNat := by
    rw [State.encryptedPayload_length, crypt_length, State.memRead_length]
  have hsend := exec_send_encrypted hp hf hcls hne ha hkey hn rfl
  rw [← frameBytes_of_length hlen, hpayload] at hsend
  exact ⟨_, frag, hfrag, hsend, rfl, rfl⟩

/-- RECV of one encrypted frame that RXS holds (46_send_recv R283). -/
theorem exec_recv_encrypted_frame {f : RxFlight} {cls : Cls} {key : Key} {opc ord t0 t1 t2 : Byte} {c : List Byte}
    {a : Half} {b : Byte} {closed : Bool} (hp : s.phase = .completion) (hf : s.rxFlight = some f)
    (hq : s.rxs = some { unread := frameBytes (opc :: ord :: (c ++ [t0, t1, t2])), pos := 0, closed := closed })
    (hn : 5 + c.length ≤ 65535) (hcls : classify s.cfg .rx opc = cls) (hne : cls ≠ .none)
    (hab : trailerUnpack s.cfg.trailerOrder t0 t1 t2 = (a, b)) (hkey : s.effectiveKey cls a b = some key) :
    ∃ u, exec .recv s = .next u ∧ u.rxStatus = .ok ∧ u.rxOpc = opc ∧ u.rxOrd = ord ∧ u.rxA = a ∧ u.rxB = b ∧
      u.rxOff = 2#16 ∧ u.rxBlen.toNat = c.length ∧ u.ord = s.ord ∧ u.lcg = s.lcg ∧
      u.memRead .rxb 2 c.length = crypt c ord key (s.salt .rx) := by
  subst hcls
  have hrecv := exec_recv_frameBytes hp hf hq (List.append_nil _).symm (by rw [encryptedFields_length]; exact hn)
  rw [State.deliverClassified_key (s := s.takeFrame _) hne hab hkey] at hrecv
  refine ⟨_, hrecv, rfl, rfl, rfl, rfl, rfl, rfl, Nat.mod_eq_of_lt (by omega), rfl, rfl, ?_⟩
  exact State.memRead_of_store rfl (crypt_length ..)

/-- Settles O50: the receiver selects the sender's key, and `crypt` with the same salt takes itself back on the body,
whatever hash fragments stand behind the ciphertext. -/
theorem sendThenRecvRestoresTheBody : Obligations.SendThenRecvRestoresTheBody := by
  intro s r f g old cls hsp hsf htxs hrp hrf hne hclsTx hclsRx hscv hrcv hraw hskt extra hfits hsalt horder
  obtain ⟨key, hkey⟩ : ∃ key, s.effectiveKey cls (outboundA (lcgNext s.lcg)) bTx = some key := by
    rw [← Option.ne_none_iff_exists', Ne, State.effectiveKey_eq_none _ _ hne, not_not]
    exact ⟨hscv, fun h => (hraw h).1, fun h => (hskt h).1⟩
  have hkey' : r.effectiveKey cls (outboundA (lcgNext s.lcg)) bTx = some key := by
    refine (State.effectiveKey_congr (hrcv.trans hscv.symm) (fun h => (hraw h).2) fun h => ?_).trans hkey
    obtain ⟨hsv, hrv, hbytes⟩ := hskt h
    exact ⟨hrv.trans hsv.symm, hbytes⟩
  have hover : s.overhead cls = 5 + extra := State.overhead_eq cls
  obtain ⟨t, frag, hfrag, hsend, hta, htxs'⟩ :=
    exec_send_encrypted_frame hsp hsf hclsTx hne rfl hkey (by rw [hover]; exact hfits)
  rw [htxs] at htxs'
  refine ⟨t, _, hsend, htxs', fun hrxs => ?_⟩
  have hlen : (crypt (s.memRead .txb 0 f.len.toNat) s.ord key (s.salt .tx) ++ frag).length = f.len.toNat + extra := by
    rw [List.length_append, crypt_length, State.memRead_length, hfrag]
  obtain ⟨u, hrecv, hok, hopc, hord, hua, hub, hoff, hblen, huord, hulcg, hread⟩ :=
    exec_recv_encrypted_frame hrp hrf hrxs (by omega) hclsRx hne (horder ▸ trailerUnpack_trailerPack ..) hkey'
  refine ⟨u, hrecv, hok, hopc, hord, hua.trans hta.symm, hub, hoff, hblen.trans hlen, huord, hulcg, ?_⟩
  rw [hlen, show r.salt .rx = s.salt .tx from funext hsalt] at hread
  rw [← State.memRead_take u .rxb 2 (Nat.le_add_right f.len.toNat extra), hread]
  exact crypt_append_crypt_take (State.memRead_length ..) ..

end Sys2Proof.Machine
end

section
/-! The obligations of 47_session_system: the issue of a command (R300), NOP (R308) and SESS.KEY (R303). -/

namespace Sys2Proof

/-- Every command is found under its own code; a wire format, which has none, is not meant (30_encoding R110). -/
theorem decodeCommand_commandCode {i : Instr} (h : i.ctx = .cmd) : decodeCommand (commandCode i) = .ok i := by
  cases i <;> cases h <;> rfl

end Sys2Proof

namespace Sys2Proof.Machine

variable {s : State} {code : Byte}

/-! ### The system commands (47_session_system R302, R303, R306, R308) -/

theorem exec_nop (s : State) : exec .nop s = .next (s.setIssue .ok) := rfl

theorem exec_sessOpen (s : State) : exec .sessOpen s = .next (s.ifIdle s.openSession) := rfl

theorem exec_sessClose (s : State) : exec .sessClose s = .next (s.ifIdle s.closeSession) := rfl

/-- What an accepted SESS.KEY leaves (47_session_system R303). -/
def State.keyed (s : State) : State :=
  { s with
    saltTx := s.saltTx.store 0 (saltBuild s.cfg s.argSeed), saltRx := s.saltRx.store 0 (saltBuild s.cfg s.argSeed)
    keyRaw := s.keyRaw.store 0 (s.memRead .pb 0 s.pbLen.toNat), seed := s.argSeed, keyLen := s.pbLen
    cipherValid := true, issueStatus := .ok }

theorem exec_sessKey (s : State) :
    exec .sessKey s =
      .next (s.ifIdle <| s.ifLive <| if s.cipherValid then s.setIssue .illegalState else s.keyed) := rfl

theorem exec_sessKey_again (htx : s.txFlight = none) (hrx : s.rxFlight = none) (hl : s.sess = .live)
    (hcv : s.cipherValid = true) : exec .sessKey s = .next (s.setIssue .illegalState) := by
  rw [exec_sessKey, State.ifIdle_idle _ htx hrx, State.ifLive_live _ hl, if_pos hcv]

theorem exec_sessKey_first (htx : s.txFlight = none) (hrx : s.rxFlight = none) (hl : s.sess = .live)
    (hcv : s.cipherValid = false) : exec .sessKey s = .next s.keyed := by
  rw [exec_sessKey, State.ifIdle_idle _ htx hrx, State.ifLive_live _ hl, if_neg (Bool.eq_false_iff.1 hcv)]

/-! ### Bytes of a memory after a store -/

/-- A byte that a store wrote. -/
theorem State.byteAt_of_store {t : State} {sp : Space} {m : Memory} {i j : Nat} {bs : List Byte} {b : Byte}
    (h : t.ram sp = m.store i bs) (hj : i ≤ j) (hb : bs[j - i]? = some b) : t.byteAt sp j = b := by
  obtain ⟨hlt, -⟩ := List.getElem?_eq_some_iff.1 hb
  refine State.byteAt_of_byte? ?_
  rw [h, Memory.byte?_store, if_pos ⟨hj, by omega⟩, hb]

/-- A byte beside those that a store wrote; within one transition a free byte stays what it was. -/
theorem State.byteAt_beside_store {t : State} {sp : Space} {i j : Nat} {bs : List Byte}
    (h : t.ram sp = (s.ram sp).store i bs) (htick : t.tick = s.tick) (hj : j < i ∨ i + bs.length ≤ j) :
    t.byteAt sp j = s.byteAt sp j := by
  rw [State.byteAt, State.byteAt, h, Memory.byte?_store, if_neg (by omega), htick]

theorem State.memRead_getElem?_of_lt {sp : Space} {i n k : Nat} (h : k < n) :
    (s.memRead sp i n)[k]? = some (s.byteAt sp (i + k)) := by
  rw [List.getElem?_eq_getElem (by rwa [State.memRead_length]), State.memRead_getElem]

/-! ### The issue of a TX or RX command (47_session_system R300) -/

theorem State.issueTx_busy (c : TxCommand) (h : s.txBusy = true) : s.issueTx c = s.setIssue .busy := if_pos h

theorem State.issueRx_busy (c : RxCommand) (h : s.rxBusy = true) : s.issueRx c = s.setIssue .busy := if_pos h

theorem State.issueTx_idle (c : TxCommand) (h : s.txFlight = none) :
    s.issueTx c = s.ifLive (if txbCap < s.txbLen.toNat then s.setIssue .illegalOperand
      else { s with issueStatus := .ok, txFlight := some (s.latchTx c) }) :=
  if_neg (Bool.eq_false_iff.1 (txBusy_eq_false.2 h))

theorem State.issueRx_idle (c : RxCommand) (h : s.rxFlight = none) :
    s.issueRx c = s.ifLive { s with issueStatus := .ok, rxFlight := some (s.latchRx c) } :=
  if_neg (Bool.eq_false_iff.1 (rxBusy_eq_false.2 h))

/-! ### A write of CMD (47_session_system R300) -/

/-- A legal code issues its command. -/
theorem issueCommand_commandCode {i : Instr} (h : i.ctx = .cmd) : issueCommand (commandCode i) s = exec i s := by
  simp only [issueCommand, decode, decodeCommand_commandCode h, Except.map]

theorem issueCommand_nop : issueCommand 0x00#8 s = .next (s.setIssue .ok) :=
  issueCommand_commandCode (i := .nop) rfl

theorem issueCommand_reset : issueCommand 0x01#8 s = exec .reset s := issueCommand_commandCode (i := .reset) rfl

theorem issueCommand_sessOpen : issueCommand 0x02#8 s = .next (s.ifIdle s.openSession) :=
  issueCommand_commandCode (i := .sessOpen) rfl

theorem issueCommand_sessKey : issueCommand 0x03#8 s = exec .sessKey s :=
  issueCommand_commandCode (i := .sessKey) rfl

theorem issueCommand_sktGen : issueCommand 0x04#8 s = exec .sktGen s := issueCommand_commandCode (i := .sktGen) rfl

theorem issueCommand_sessClose : issueCommand 0x05#8 s = .next (s.ifIdle s.closeSession) :=
  issueCommand_commandCode (i := .sessClose) rfl

/-! ### Which unit a command needs, and whether it is busy (47_session_system R300 step 4) -/

/-- The codes of the system commands that need both units idle (R300 step 4). -/
def isSystemCode (code : Byte) : Prop := code = 0x02#8 ∨ code = 0x03#8 ∨ code = 0x04#8 ∨ code = 0x05#8

def isTxCode (code : Byte) : Prop := code = 0x10#8 ∨ code = 0x11#8 ∨ code = 0x12#8

def isRxCode (code : Byte) : Prop := code = 0x20#8 ∨ code = 0x21#8 ∨ code = 0x22#8

/-- Step 4 of the issue: a unit that the command needs is busy (R300). -/
def State.refusesBusy (s : State) (code : Byte) : Prop :=
  (isSystemCode code ∧ (s.txBusy = true ∨ s.rxBusy = true)) ∨ (isTxCode code ∧ s.txBusy = true) ∨
    (isRxCode code ∧ s.rxBusy = true)

theorem State.idle_of_system (h : isSystemCode code) (hb : ¬ s.refusesBusy code) :
    s.txFlight = none ∧ s.rxFlight = none := by
  rw [← txBusy_eq_false, ← rxBusy_eq_false, ← Bool.not_eq_true, ← Bool.not_eq_true, ← not_or]
  exact fun hbusy => hb (.inl ⟨h, hbusy⟩)

theorem State.txIdle_of_tx (h : isTxCode code) (hb : ¬ s.refusesBusy code) : s.txFlight = none := by
  rw [← txBusy_eq_false, ← Bool.not_eq_true]
  exact fun hbusy => hb (.inr (.inl ⟨h, hbusy⟩))

theorem State.rxIdle_of_rx (h : isRxCode code) (hb : ¬ s.refusesBusy code) : s.rxFlight = none := by
  rw [← rxBusy_eq_false, ← Bool.not_eq_true]
  exact fun hbusy => hb (.inr (.inr ⟨h, hbusy⟩))

/-- A system command with a busy check runs behind it. -/
theorem issueCommand_system (h : isSystemCode code) : ∃ run, issueCommand code s = .next (s.ifIdle run) := by
  obtain rfl | rfl | rfl | rfl := h
  · exact ⟨_, issueCommand_sessOpen⟩
  · exact ⟨_, issueCommand_sessKey.trans (exec_sessKey s)⟩
  · exact ⟨_, issueCommand_sktGen.trans (exec_sktGen s)⟩
  · exact ⟨_, issueCommand_sessClose⟩

theorem issueCommand_tx (hp : s.phase = .issue) (h : isTxCode code) :
    ∃ c : TxCommand, commandCode c.instr = code ∧ issueCommand code s = .next (s.issueTx c) := by
  obtain rfl | rfl | rfl := h
  · exact ⟨.frameWr, rfl, (issueCommand_commandCode (i := .frameWr) rfl).trans (exec_frameWr_issue hp)⟩
  · exact ⟨.send, rfl, (issueCommand_commandCode (i := .send) rfl).trans (exec_send_issue hp)⟩
  · exact ⟨.cryptTx, rfl, (issueCommand_commandCode (i := .cryptTx) rfl).trans (exec_cryptTx_issue hp)⟩

theorem issueCommand_rx (hp : s.phase = .issue) (h : isRxCode code) :
    ∃ c : RxCommand, commandCode c.instr = code ∧ issueCommand code s = .next (s.issueRx c) := by
  obtain rfl | rfl | rfl := h
  · exact ⟨.frameRd, rfl, (issueCommand_commandCode (i := .frameRd) rfl).trans (exec_frameRd_issue hp)⟩
  · exact ⟨.recv, rfl, (issueCommand_commandCode (i := .recv) rfl).trans (exec_recv_issue hp)⟩
  · exact ⟨.cryptRx, rfl, (issueCommand_commandCode (i := .cryptRx) rfl).trans (exec_cryptRx_issue hp)⟩

/-- Step 4: each of the three kinds of command tests its own unit before anything else. -/
theorem issueCommand_busy (hp : s.phase = .issue) (h : s.refusesBusy code) :
    issueCommand code s = .next (s.setIssue .busy) := by
  obtain ⟨hsys, hbusy⟩ | ⟨htx, hbusy⟩ | ⟨hrx, hbusy⟩ := h
  · obtain ⟨run, hrun⟩ := issueCommand_system (s := s) hsys
    rw [hrun, State.ifIdle_busy run hbusy]
  · obtain ⟨c, -, hc⟩ := issueCommand_tx hp htx
    rw [hc, State.issueTx_busy c hbusy]
  · obtain ⟨c, -, hc⟩ := issueCommand_rx hp hrx
    rw [hc, State.issueRx_busy c hbusy]

/-- Step 6: what is not refused as busy tests the session next, where it needs one. -/
theorem issueCommand_ifLive (hp : s.phase = .issue)
    (h : code = 0x03#8 ∨ code = 0x04#8 ∨ isTxCode code ∨ isRxCode code) (hb : ¬ s.refusesBusy code) :
    ∃ run, issueCommand code s = .next (s.ifLive run) := by
  obtain rfl | rfl | htx | hrx := h
  · obtain ⟨htx, hrx⟩ := State.idle_of_system (.inr (.inl rfl)) hb
    exact ⟨_, by rw [issueCommand_sessKey, exec_sessKey, State.ifIdle_idle _ htx hrx]⟩
  · obtain ⟨htx, hrx⟩ := State.idle_of_system (.inr (.inr (.inl rfl))) hb
    exact ⟨_, by rw [issueCommand_sktGen, exec_sktGen, State.ifIdle_idle _ htx hrx]⟩
  · obtain ⟨c, -, hc⟩ := issueCommand_tx hp htx
    exact ⟨_, by rw [hc, State.issueTx_idle c (State.txIdle_of_tx htx hb)]⟩
  · obtain ⟨c, -, hc⟩ := issueCommand_rx hp hrx
    exact ⟨_, by rw [hc, State.issueRx_idle c (State.rxIdle_of_rx hrx hb)]⟩

/-! ### The obligations -/

/-- Settles O16: NOP is accepted always. -/
theorem nopWritesIssueStatusOnly : Obligations.NopWritesIssueStatusOnly := by
  intro s
  rw [exec_nop, State.setIssue]

/-- Settles O18: the command runs in an idle, LIVE machine, and each byte is read back from the one store over it. -/
theorem sessKeyLoadsSeedSaltAndKey : Obligations.SessKeyLoadsSeedSaltAndKey := by
  intro s htx hrx hl
  refine ⟨exec_sessKey_again htx hrx hl, ?_⟩
  intro hcv t
  have hraw : t.ram .keyRaw = (s.ram .keyRaw).store 0 (s.memRead .pb 0 s.pbLen.toNat) := rfl
  refine ⟨exec_sessKey_first htx hrx hl hcv, fun i hi => ?_, fun i hi => ?_, fun i hi => ?_⟩
  · have hsalt := saltBuild_getElem? s.cfg s.argSeed i hi
    exact ⟨State.byteAt_of_store (m := s.saltTx) rfl (Nat.zero_le i) hsalt,
      State.byteAt_of_store (m := s.saltRx) rfl (Nat.zero_le i) hsalt⟩
  · refine State.byteAt_of_store hraw (Nat.zero_le i) ?_
    rw [Nat.sub_zero, State.memRead_getElem?_of_lt hi, Nat.zero_add]
  · refine State.byteAt_beside_store hraw rfl (.inr ?_)
    rwa [State.memRead_length, Nat.zero_add]

/-- Settles O15: each command passes the checks in the order of the rule, so a clause follows its command through those
that come before its own. -/
theorem issueFollowsItsCases : Obligations.IssueFollowsItsCases := by
  intro s code hp isSys isTx isRx busy needsSession
  have hlive (h : needsSession) (hb : ¬ busy) : ∃ run, issueCommand code s = .next (s.ifLive run) :=
    issueCommand_ifLive hp h hb
  have hidle (h : isSys) (hb : ¬ busy) : s.txFlight = none ∧ s.rxFlight = none := State.idle_of_system h hb
  refine ⟨issueCommand_illegal, fun h => h ▸ issueCommand_nop, fun h => h ▸ issueCommand_reset,
    issueCommand_busy hp, ?opens, ?closes, ?noSession, ?sessionDead, ?tooLong, ?keyedAgain, ?keyed, ?tabled,
    ?txAccepted, ?rxAccepted⟩
  case opens =>
    intro h hb
    obtain ⟨htx, hrx⟩ := hidle (.inl h) hb
    rw [h, issueCommand_sessOpen, State.ifIdle_idle _ htx hrx]
  case closes =>
    intro h hb
    obtain ⟨htx, hrx⟩ := hidle (.inr (.inr (.inr h))) hb
    rw [h, issueCommand_sessClose, State.ifIdle_idle _ htx hrx]
  case noSession =>
    intro h hb hs
    obtain ⟨run, hrun⟩ := hlive h hb
    rw [hrun, State.ifLive_none run hs, State.setIssue]
  case sessionDead =>
    intro h hb hs
    obtain ⟨run, hrun⟩ := hlive h hb
    rw [hrun, State.ifLive_dead run hs, State.setIssue]
  case tooLong =>
    intro h hb hs hn
    obtain ⟨c, -, hc⟩ := issueCommand_tx hp h
    rw [hc, State.issueTx_idle c (State.txIdle_of_tx h hb), State.ifLive_live _ hs, if_pos hn, State.setIssue]
  case keyedAgain =>
    intro h hb hs hcv
    obtain ⟨htx, hrx⟩ := hidle (.inr (.inl h)) hb
    rw [h, issueCommand_sessKey, exec_sessKey_again htx hrx hs hcv, State.setIssue]
  case keyed =>
    intro h hb hs hcv
    obtain ⟨htx, hrx⟩ := hidle (.inr (.inl h)) hb
    have hrun := exec_sessKey_first htx hrx hs hcv
    exact ⟨s.keyed, by rw [h, issueCommand_sessKey, hrun], rfl, rfl, hrun⟩
  case tabled =>
    intro h hb hs
    obtain ⟨htx, hrx⟩ := hidle (.inr (.inr (.inl h))) hb
    obtain ⟨hrun, -⟩ := sktGenStoresTheTable s htx hrx hs
    exact ⟨_, by rw [h, issueCommand_sktGen, hrun], rfl, rfl, hrun⟩
  case txAccepted =>
    intro h hb hs hn
    obtain ⟨c, hcode, hc⟩ := issueCommand_tx hp h
    refine ⟨c, hcode, ?_⟩
    rw [hc, State.issueTx_idle c (State.txIdle_of_tx h hb), State.ifLive_live _ hs, if_neg (Nat.not_lt.2 hn),
      State.latchTx]
  case rxAccepted =>
    intro h hb hs
    obtain ⟨c, hcode, hc⟩ := issueCommand_rx hp h
    refine ⟨c, hcode, ?_⟩
    rw [hc, State.issueRx_idle c (State.rxIdle_of_rx h hb), State.ifLive_live _ hs, State.latchRx]

end Sys2Proof.Machine
end

section
/-! The obligation of 70_reset_and_hazards: power-on and RESET (10_state R55; R370). -/

namespace Sys2Proof.Machine

theorem exec_reset (s : State) : exec .reset s = .next s.resetMachine := rfl

/-- LCG, register 5, is the one register that does not start at 0. -/
theorem State.reset_readReg (no : Byte) : State.reset.readReg no = if no = 5#8 then 1#32 else 0#32 := by
  by_cases h : no = 5#8
  · subst h
    rfl
  · have hlcg : no.toNat ≠ 5 := fun h5 => h (BitVec.eq_of_toNat_eq h5)
    rw [if_neg h, State.readReg]
    split
    case h_5 h5 => exact absurd h5 hlcg
    all_goals rfl

theorem State.resetMachine_readReg (s : State) (no : Byte) : s.resetMachine.readReg no = State.reset.readReg no := rfl

/-- RESET keeps the parameters, so the ROMs; every RAM is reset's. -/
theorem State.resetMachine_ram (s : State) {sp : Space} (htx : sp ≠ .encTx) (hrx : sp ≠ .encRx) :
    s.resetMachine.ram sp = State.reset.ram sp := by
  cases sp
  case encTx => exact absurd rfl htx
  case encRx => exact absurd rfl hrx
  all_goals rfl

theorem State.reset_powerOn : State.reset.powerOn := by
  refine ⟨State.reset_readReg, fun sp i htx hrx => ?_, rfl, rfl, rfl, rfl⟩
  rw [State.reset_memories_empty sp htx hrx]
  rfl

/-- What power-on says is about fields that RESET takes from the reset state. -/
theorem State.resetMachine_powerOn (s : State) : s.resetMachine.powerOn := by
  obtain ⟨hregs, hrams, hrxs, htxs, htx, hrx⟩ := State.reset_powerOn
  refine ⟨fun no => ?_, fun sp i hsp hsp' => ?_, hrxs, htxs, htx, hrx⟩
  · rw [State.resetMachine_readReg, hregs]
  · rw [State.resetMachine_ram s hsp hsp', hrams sp i hsp hsp']

/-- Settles O1: RESET answers the reset state in all that power-on speaks of, and keeps the parameters. -/
theorem powerOnAndResetLeaveSpecValues : Obligations.PowerOnAndResetLeaveSpecValues :=
  ⟨State.reset_powerOn, rfl, fun s => ⟨s.resetMachine, exec_reset s, s.resetMachine_powerOn, rfl⟩⟩

end Sys2Proof.Machine
end

section
/-! The obligations of 30_encoding that join the decoder to the encoder: the round trip from an instruction (R90 to
R110) and from bytes (R91, R108), and words written out from the spec (R110). -/

namespace Sys2Proof

/-! ### Commands (30_encoding R110) -/

theorem encode_command {i : Instr} (h : i.ctx = .cmd) : encode i = [commandCode i] := by
  cases i <;> cases h <;> rfl

/-- A command has no payload and no fragments, so it is always well formed. -/
theorem wellFormed_command (nfrag : Nat) {i : Instr} (h : i.ctx = .cmd) : i.wellFormed nfrag = true := by
  cases i <;> cases h <;> rfl

/-- The table holds commands only. -/
theorem decodeCommand_ctx {code : Byte} {i : Instr} (h : decodeCommand code = .ok i) : i.ctx = .cmd := by
  unfold decodeCommand at h
  split at h <;> cases h <;> rfl

theorem decode_encode_command (nfrag : Nat) {i : Instr} (h : i.ctx = .cmd) :
    decode nfrag .cmd (encode i) = .ok (i, []) := by
  simp only [encode_command h, decode, decodeCommand_commandCode h, Except.map]

/-! ### Payloads (30_encoding R94, R103, R104, R106) -/

theorem decode_payload_ok {nfrag : Nat} {d : Dir} {cls : Cls} {p : List Byte} {i : Instr}
    (h : decodePayload nfrag d cls p = .ok i) : decode nfrag (.payload d cls) p = .ok (i, []) := by
  simp only [decode, h, Except.map]

theorem decodePayload_plain (nfrag : Nat) (d : Dir) (opc : Byte) {body : List Byte}
    (h : 1 + body.length ≤ maxPayload) : decodePayload nfrag d .none (opc :: body) = .ok (.pPlain d opc body) := by
  have hlen : ¬ maxPayload < (opc :: body).length := by rw [List.length_cons]; omega
  simp only [decodePayload, if_neg hlen]

/-- The fields of an encrypted payload that fits a frame do not make it too long. -/
theorem not_maxPayload_lt_fields (opc ord t0 t1 t2 : Byte) {mid : List Byte} (h : 5 + mid.length ≤ maxPayload) :
    ¬ maxPayload < (opc :: ord :: (mid ++ [t0, t1, t2])).length := by
  rw [Machine.encryptedFields_length]
  omega

theorem decodePayload_normTx (nfrag : Nat) (opc ord t0 t1 t2 : Byte) {cbody : List Byte}
    (h : 5 + cbody.length ≤ maxPayload) :
    decodePayload nfrag .tx .normal (opc :: ord :: (cbody ++ [t0, t1, t2])) =
      .ok (.pNormTx opc ord cbody t0 t1 t2) := by
  simp only [decodePayload, if_neg (not_maxPayload_lt_fields opc ord t0 t1 t2 h), splitEncrypted_append]

/-- What stands between ordinal and trailer is cut NFRAG bytes before its end. -/
theorem decodePayload_md5Tx (opc ord t0 t1 t2 : Byte) {cbody frag : List Byte}
    (h : 5 + frag.length + cbody.length ≤ maxPayload) :
    decodePayload frag.length .tx .md5 (opc :: ord :: (cbody ++ frag ++ [t0, t1, t2])) =
      .ok (.pMd5Tx opc ord cbody frag t0 t1 t2) := by
  have hmid : (cbody ++ frag).length = cbody.length + frag.length := List.length_append
  have hfits : 5 + (cbody ++ frag).length ≤ maxPayload := by omega
  have hroom : frag.length ≤ (cbody ++ frag).length := by omega
  have hcut : (cbody ++ frag).length - frag.length = cbody.length := by omega
  simp only [decodePayload, if_neg (not_maxPayload_lt_fields opc ord t0 t1 t2 hfits), splitEncrypted_append,
    if_pos hroom, hcut, List.take_left, List.drop_left]

theorem decodePayload_encRx (nfrag : Nat) {cls : Cls} (hcls : cls ≠ .none) (opc ord t0 t1 t2 : Byte)
    {cbody : List Byte} (h : 5 + cbody.length ≤ maxPayload) :
    decodePayload nfrag .rx cls (opc :: ord :: (cbody ++ [t0, t1, t2])) = .ok (.pEncRx opc ord cbody t0 t1 t2) := by
  cases cls with
  | none => exact absurd rfl hcls
  | normal | md5 =>
    simp only [decodePayload, if_neg (not_maxPayload_lt_fields opc ord t0 t1 t2 h), splitEncrypted_append]

theorem decodePayload_length_le {nfrag : Nat} {d : Dir} {cls : Cls} {p : List Byte} {i : Instr}
    (h : decodePayload nfrag d cls p = .ok i) : p.length ≤ maxPayload := by
  by_contra hlong
  simp only [decodePayload, if_pos (Nat.lt_of_not_le hlong)] at h
  cases h

/-- Everything a payload of class None can decode to. -/
theorem decodePayload_none_ok {nfrag : Nat} {d : Dir} {p : List Byte} {i : Instr}
    (h : decodePayload nfrag d .none p = .ok i) : ∃ opc body, p = opc :: body ∧ i = .pPlain d opc body := by
  simp only [decodePayload, if_neg (Nat.not_lt.2 (decodePayload_length_le h))] at h
  cases p with
  | nil => cases h
  | cons opc body => cases h; exact ⟨opc, body, rfl, rfl⟩

/-- Everything a payload of an encrypted class can decode to. -/
theorem decodePayload_encrypted_ok {nfrag : Nat} {d : Dir} {cls : Cls} {p : List Byte} {i : Instr} (hcls : cls ≠ .none)
    (h : decodePayload nfrag d cls p = .ok i) :
    ∃ opc ord mid t0 t1 t2, p = opc :: ord :: (mid ++ [t0, t1, t2]) ∧
      (d = .rx ∧ i = .pEncRx opc ord mid t0 t1 t2 ∨ d = .tx ∧ i = .pNormTx opc ord mid t0 t1 t2 ∨
        d = .tx ∧ nfrag ≤ mid.length ∧
          i = .pMd5Tx opc ord (mid.take (mid.length - nfrag)) (mid.drop (mid.length - nfrag)) t0 t1 t2) := by
  have hlen := Nat.not_lt.2 (decodePayload_length_le h)
  cases hsplit : splitEncrypted p with
  | none => cases cls <;> simp [decodePayload, hlen, hsplit] at h hcls
  | some parts =>
    obtain ⟨opc, ord, mid, t0, t1, t2⟩ := parts
    refine ⟨opc, ord, mid, t0, t1, t2, splitEncrypted_some hsplit, ?_⟩
    cases cls with
    | none => exact absurd rfl hcls
    | normal =>
      simp only [decodePayload, if_neg hlen, hsplit] at h
      cases d <;> cases h
      · exact .inr (.inl ⟨rfl, rfl⟩)
      · exact .inl ⟨rfl, rfl⟩
    | md5 =>
      cases d with
      | rx => simp only [decodePayload, if_neg hlen, hsplit] at h; cases h; exact .inl ⟨rfl, rfl⟩
      | tx =>
        simp only [decodePayload, if_neg hlen, hsplit] at h
        split at h
        case isTrue hroom => cases h; exact .inr (.inr ⟨rfl, hroom, rfl⟩)
        case isFalse => cases h

/-- A payload that was decoded is the encoding of what it decoded to, which is well formed. -/
theorem decodePayload_sound {nfrag : Nat} {d : Dir} {cls : Cls} {p : List Byte} {i : Instr}
    (h : decodePayload nfrag d cls p = .ok i) : encode i = p ∧ i.wellFormed nfrag = true := by
  have hlen := decodePayload_length_le h
  rw [wellFormed_iff]
  by_cases hcls : cls = .none
  · subst hcls
    obtain ⟨opc, body, rfl, rfl⟩ := decodePayload_none_ok h
    exact ⟨rfl, by rwa [Instr.payloadLength, Nat.add_comm], rfl⟩
  · obtain ⟨opc, ord, mid, t0, t1, t2, rfl, hi⟩ := decodePayload_encrypted_ok hcls h
    rw [Machine.encryptedFields_length] at hlen
    obtain ⟨-, rfl⟩ | ⟨-, rfl⟩ | ⟨-, hroom, rfl⟩ := hi
    · exact ⟨rfl, hlen, rfl⟩
    · exact ⟨rfl, hlen, rfl⟩
    · have hfrag : (mid.drop (mid.length - nfrag)).length = nfrag := by rw [List.length_drop]; omega
      refine ⟨?_, ?_, ?_⟩
      · simp only [encode, List.cons_append, List.take_append_drop]
      · rw [Instr.payloadLength, List.length_take, List.length_drop]
        simp only [maxPayload] at hlen
        omega
      · rw [Instr.fragmentsOk, hfrag, beq_self_eq_true]

/-! ### Frames (30_encoding R90, R91) -/

/-- The two length bytes of a header are the bytes of the length they give. -/
theorem frameBytes_of_frameLength {hi lo : Byte} {p : List Byte} (h : p.length = frameLength hi lo) :
    frameBytes p = magic :: hi :: lo :: p := by
  have hhi : BitVec.ofNat 8 (p.length / 256) = hi := by
    apply BitVec.eq_of_toNat_eq
    rw [h, frameLength, BitVec.toNat_ofNat]
    omega
  have hlo : BitVec.ofNat 8 p.length = lo := by
    apply BitVec.eq_of_toNat_eq
    rw [h, frameLength, BitVec.toNat_ofNat]
    omega
  rw [frameBytes, hhi, hlo]

/-! ### The obligations -/

/-- Settles O6: a command's code is looked up, a frame's length bytes cut its payload out again, and the fields of a
payload come apart where they were put together. -/
theorem wellFormedInstructionsRoundTrip : Obligations.WellFormedInstructionsRoundTrip := by
  intro nfrag i hwf
  obtain ⟨hlen, hfrag⟩ := (wellFormed_iff nfrag i).1 hwf
  cases i with
  | frame d p =>
    have hframe := decodeFrame_frameBytes p [] hlen
    rw [List.append_nil] at hframe
    exact decode_frame_ok nfrag d hframe
  | pPlain d opc body => exact decode_payload_ok (decodePayload_plain nfrag d opc hlen)
  | pNormTx opc ord cbody t0 t1 t2 => exact decode_payload_ok (decodePayload_normTx nfrag opc ord t0 t1 t2 hlen)
  | pMd5Tx opc ord cbody frag t0 t1 t2 =>
    obtain rfl : frag.length = nfrag := by simpa [Instr.fragmentsOk] using hfrag
    exact decode_payload_ok (decodePayload_md5Tx opc ord t0 t1 t2 hlen)
  | pEncRx opc ord cbody t0 t1 t2 =>
    exact decode_payload_ok (decodePayload_encRx nfrag (by decide) opc ord t0 t1 t2 hlen)
  | _ => exact decode_encode_command nfrag rfl

/-- Settles O8: in each place of the bytes, what the decoder accepted is the encoding with the rest behind it. -/
theorem decodedBytesReencode : Obligations.DecodedBytesReencode := by
  intro nfrag c bs rest i h
  cases c with
  | cmd =>
    cases bs with
    | nil => cases h
    | cons code bs =>
      cases hcode : decodeCommand code with
      | error e => simp [decode, hcode, Except.map] at h
      | ok j =>
        obtain ⟨rfl, rfl⟩ : j = i ∧ bs = rest := by simpa [decode, hcode, Except.map] using h
        have hctx := decodeCommand_ctx hcode
        exact ⟨by rw [encode_command hctx, decodeCommand_code code hcode]; rfl, wellFormed_command nfrag hctx⟩
  | frame d =>
    cases hframe : decodeFrame bs with
    | error e => simp [decode, hframe, Except.map] at h
    | ok found =>
      obtain ⟨p, after⟩ := found
      obtain ⟨rfl, rfl⟩ : Instr.frame d p = i ∧ after = rest := by simpa [decode, hframe, Except.map] using h
      obtain ⟨hi, lo, rfl, hl⟩ := decodeFrame_ok hframe
      exact ⟨by rw [encode, frameBytes_of_frameLength hl]; rfl,
        (wellFormed_iff ..).2 ⟨decodeFrame_length_le hframe, rfl⟩⟩
  | payload d cls =>
    cases hpayload : decodePayload nfrag d cls bs with
    | error e => simp [decode, hpayload, Except.map] at h
    | ok j =>
      obtain ⟨rfl, rfl⟩ : j = i ∧ [] = rest := by simpa [decode, hpayload, Except.map] using h
      rw [List.append_nil]
      exact decodePayload_sound hpayload

/-- Settles O9: the four codes are those of their commands; the frame and the payload are the encodings of theirs. -/
theorem specWordsDecode : Obligations.SpecWordsDecode := by
  refine ⟨decode_encode_command 4 (i := .nop) rfl, decode_encode_command 4 (i := .sktGen) rfl,
    decode_encode_command 4 (i := .send) rfl, decode_encode_command 4 (i := .cryptRx) rfl, ?_, ?_⟩
  · exact decode_frame_ok 4 .rx (decodeFrame_frameBytes [0x7E#8] [0xAA#8] (by decide))
  · have hfits : 5 + [0x03#8].length ≤ maxPayload := by decide
    exact decode_payload_ok (decodePayload_encRx 4 (by decide) 0x05#8 0x2A#8 0x44#8 0x61#8 0x66#8 hfits)

end Sys2Proof
end

section
/-! The obligations of 20_memory on completion steps: what they write (R61), and that a TX and an RX completion commute
(R76). -/

namespace Sys2Proof.Machine

variable {s : State}

/-! ### What a TX completion leaves (20_memory R61; 46_send_recv R270 to R275) -/

/-- What is to know of a TX completion beside the values it writes. -/
structure TxDone (s : State) (f : TxFlight) (t : State) : Prop where
  /-- TXB changes below the latched length at most, and under FRAME.WR and SEND of class None not at all. -/
  buffer : t.txb = s.txb ∨ (f.cmd ≠ .frameWr ∧ (f.cmd = .send → classify s.cfg .tx f.opc ≠ .none) ∧
    ∃ bs : List Byte, bs.length = f.len.toNat ∧ t.txb = s.txb.store 0 bs)
  /-- TXS stays bound. -/
  stream : t.txs.isSome = s.txs.isSome
  /-- ORD and LCG advance together, by an encrypted SEND that succeeds. -/
  counters : (t.ord = s.ord ∧ t.lcg = s.lcg) ∨ (f.cmd = .send ∧ classify s.cfg .tx f.opc ≠ .none ∧
    t.txStatus = .ok ∧ t.ord = s.ord + 1#8 ∧ t.lcg = lcgNext s.lcg)
  /-- A fatal error, and nothing else, kills the session. -/
  session : t.sess = if t.txStatus.fatal then .dead else s.sess

/-- A frame is written, or it is too long; TX_CLASS may have been written before. -/
theorem frameWrite_done (s : State) (f : TxFlight) (cls : Cls) (p : List Byte) :
    TxDone s f ({ s with txClass := cls }.frameWrite p) := by
  by_cases h : p.length ≤ 65535
  · rw [State.frameWrite_ok p h]
    exact ⟨.inl rfl, Option.isSome_map, .inl ⟨rfl, rfl⟩, rfl⟩
  · rw [State.frameWrite_tooLarge p (Nat.lt_of_not_le h)]
    exact ⟨.inl rfl, rfl, .inl ⟨rfl, rfl⟩, rfl⟩

theorem sendComplete_done (s : State) {f : TxFlight} (hc : f.cmd = .send) : TxDone s f (s.sendComplete f) := by
  obtain ⟨-, e⟩ | ⟨-, -, e⟩ | ⟨hne, key, -, ⟨-, e⟩ | ⟨-, e⟩⟩ := State.sendComplete_cases (s := s) f <;> rw [e]
  · exact frameWrite_done s f .none _
  · exact ⟨.inl rfl, rfl, .inl ⟨rfl, rfl⟩, rfl⟩
  · exact ⟨.inl rfl, rfl, .inl ⟨rfl, rfl⟩, rfl⟩
  · refine ⟨.inr ⟨by rw [hc]; decide, fun _ => hne, _, ?_, rfl⟩, Option.isSome_map, .inr ⟨hc, hne, rfl, rfl, rfl⟩, rfl⟩
    rw [crypt_length, State.memRead_length]

theorem cryptTxComplete_done (s : State) {f : TxFlight} (hc : f.cmd = .cryptTx) :
    TxDone s f (s.cryptTxComplete f) := by
  obtain ⟨-, e⟩ | ⟨key, -, e⟩ := State.cryptTxComplete_cases (s := s) f <;> rw [e]
  · exact ⟨.inl rfl, rfl, .inl ⟨rfl, rfl⟩, rfl⟩
  · refine ⟨.inr ⟨by rw [hc]; decide, by rw [hc]; nofun, _, ?_, rfl⟩, rfl, .inl ⟨rfl, rfl⟩, rfl⟩
    rw [crypt_length, State.memRead_length]

theorem State.txCompletion_done (s : State) (f : TxFlight) : TxDone s f (s.txCompletion f) := by
  unfold State.txCompletion
  split
  case h_1 => exact frameWrite_done s f s.txClass _
  case h_2 hc => exact sendComplete_done s hc
  case h_3 hc => exact cryptTxComplete_done s hc

/-! ### What an RX completion leaves (20_memory R61; 40_frame_codec R130 to R134; 46_send_recv R280 to R286) -/

/-- What an RX completion does to RXB and to the registers that say what stands in it. -/
inductive RxBuffer (s : State) (f : RxFlight) (t : State) : Prop where
  /-- It was held, or it raised an error before it had a payload. -/
  | kept : t.rxb = s.rxb → t.rxbLen = s.rxbLen → t.rxOff = s.rxOff → t.rxBlen = s.rxBlen →
      (t.rxFlight = s.rxFlight ∨ t.rxFlight = none) → RxBuffer s f t
  /-- FRAME.RD or RECV stored the payload of a whole frame; RECV may have decrypted inside it. -/
  | payload (q : RxStream) (p rest : List Byte) : f.cmd ≠ .cryptRx → s.rxs = some q →
      decodeFrame q.unread = .ok (p, rest) → t.rxbLen = BitVec.ofNat 16 p.length →
      t.rxOff.toNat + t.rxBlen.toNat ≤ p.length → t.rxFlight = none →
      (t.rxb = s.rxb.store 0 p ∨
        ∃ bs : List Byte, 2 + bs.length ≤ p.length ∧ t.rxb = (s.rxb.store 0 p).store 2 bs) → RxBuffer s f t
  /-- CRYPT.RX wrote the latched window. -/
  | window (bs : List Byte) : f.cmd = .cryptRx → bs.length = f.blen.toNat → t.rxb = s.rxb.store f.off.toNat bs →
      t.rxbLen = s.rxbLen → t.rxOff = s.rxOff → t.rxBlen = s.rxBlen → t.rxFlight = none → RxBuffer s f t

/-- What is to know of an RX completion beside the values it writes. -/
structure RxDone (s : State) (f : RxFlight) (t : State) : Prop where
  buffer : RxBuffer s f t
  /-- RXS stays bound. -/
  stream : t.rxs.isSome = s.rxs.isSome
  /-- A fatal error, and nothing else, kills the session. -/
  session : t.sess = s.sess ∨ (t.sess = .dead ∧ t.rxStatus.fatal = true ∧ t.rxFlight = none)

/-- What FRAME.RD and RECV do with a payload, as far as RXB and the session go. -/
structure Delivered (s : State) (p : List Byte) (t : State) : Prop where
  length : t.rxbLen = BitVec.ofNat 16 p.length
  window : t.rxOff.toNat + t.rxBlen.toNat ≤ p.length
  flight : t.rxFlight = none
  bytes : t.rxb = s.rxb.store 0 p ∨
    ∃ bs : List Byte, 2 + bs.length ≤ p.length ∧ t.rxb = (s.rxb.store 0 p).store 2 bs
  stream : t.rxs = s.rxs
  session : t.sess = s.sess ∨ (t.sess = .dead ∧ t.rxStatus.fatal = true)

theorem deliverRaw_delivered (s : State) (p : List Byte) : Delivered s p (s.deliverRaw p) := by
  rw [State.deliverRaw_eq]
  refine ⟨rfl, ?_, rfl, .inl rfl, rfl, .inl rfl⟩
  simpa using Nat.mod_le p.length 65536

theorem deliverClassified_delivered (s : State) (p : List Byte) : Delivered s p (s.deliverClassified p) := by
  have hmod (n : Nat) : (BitVec.ofNat 16 n).toNat ≤ n := Nat.mod_le _ _
  obtain ⟨rfl, e⟩ | ⟨opc, body, rfl, ⟨-, e⟩ | ⟨-, -, e⟩ | ⟨-, ord, c, t0, t1, t2, hp, ⟨-, e⟩ | ⟨key, -, e⟩⟩⟩ :=
    State.deliverClassified_cases (s := s) p <;> rw [e]
  · exact ⟨rfl, Nat.le_refl 0, rfl, .inl rfl, rfl, .inr ⟨rfl, rfl⟩⟩
  · refine ⟨rfl, ?_, rfl, .inl rfl, rfl, .inl rfl⟩
    have := hmod body.length
    show 1 + (BitVec.ofNat 16 body.length).toNat ≤ body.length + 1
    omega
  · exact ⟨rfl, (Nat.zero_add _).trans_le (hmod _), rfl, .inl rfl, rfl, .inr ⟨rfl, rfl⟩⟩
  · exact ⟨rfl, (Nat.zero_add _).trans_le (hmod _), rfl, .inl rfl, rfl, .inl rfl⟩
  · have hlen : (opc :: body).length = 5 + c.length := by rw [hp, encryptedFields_length]
    refine ⟨rfl, ?_, rfl, .inr ⟨_, ?_, rfl⟩, rfl, .inl rfl⟩
    · have := hmod c.length
      show 2 + (BitVec.ofNat 16 c.length).toNat ≤ _
      omega
    · rw [crypt_length]
      omega

theorem frameReadThen_done (s : State) {f : RxFlight} (hc : f.cmd ≠ .cryptRx) {k : State → List Byte → State}
    (hk : ∀ u p, Delivered u p (k u p)) : RxDone s f (s.frameReadThen k) := by
  obtain ⟨-, e⟩ | ⟨q, p, rest, hq, hd, e⟩ | ⟨q, err, n, hq, herr, e⟩ := State.frameReadThen_cases (s := s) k <;> rw [e]
  · exact ⟨.kept rfl rfl rfl rfl (.inl rfl), rfl, .inl rfl⟩
  · obtain ⟨hlen, hwin, hfl, hbytes, hrxs, hsess⟩ := hk (s.takeFrame p) p
    refine ⟨.payload q p rest hc hq hd hlen hwin hfl hbytes, ?_, hsess.imp id fun ⟨h, h'⟩ => ⟨h, h', hfl⟩⟩
    rw [hrxs]
    exact Option.isSome_map
  · exact ⟨.kept rfl rfl rfl rfl (.inr rfl), by rw [hq]; rfl,
      .inr ⟨rfl, (RxStream.frameRead_eq_error herr).1, rfl⟩⟩

theorem cryptRxComplete_done (s : State) {f : RxFlight} (hc : f.cmd = .cryptRx) :
    RxDone s f (s.cryptRxComplete f) := by
  obtain ⟨-, e⟩ | ⟨key, -, e⟩ := State.cryptRxComplete_cases (s := s) f <;> rw [e]
  · exact ⟨.kept rfl rfl rfl rfl (.inr rfl), rfl, .inl rfl⟩
  · refine ⟨.window _ hc ?_ rfl rfl rfl rfl rfl, rfl, .inl rfl⟩
    rw [crypt_length, State.memRead_length]

theorem State.rxCompletion_done (s : State) (f : RxFlight) : RxDone s f (s.rxCompletion f) := by
  unfold State.rxCompletion
  split
  case h_1 hc => exact frameReadThen_done s (by rw [hc]; decide) deliverRaw_delivered
  case h_2 hc => exact frameReadThen_done s (by rw [hc]; decide) deliverClassified_delivered
  case h_3 hc => exact cryptRxComplete_done s hc

/-! ### Bytes after a completion -/

/-- A completion step makes the command that `exec` names, whatever command the latched operands were for. -/
theorem exec_tx_as {f : TxFlight} (c : TxCommand) (hp : s.phase = .completion) (hf : s.txFlight = some f) :
    exec c.instr s = .next (s.txCompletion { f with cmd := c }) := by
  cases c
  · exact exec_frameWr_completion (f := f) hp hf
  · exact exec_send_completion (f := f) hp hf
  · exact exec_cryptTx_completion (f := f) hp hf

theorem exec_rx_as {f : RxFlight} (c : RxCommand) (hp : s.phase = .completion) (hf : s.rxFlight = some f) :
    exec c.instr s = .next (s.rxCompletion { f with cmd := c }) := by
  cases c
  · exact exec_frameRd_completion (f := f) hp hf
  · exact exec_recv_completion (f := f) hp hf
  · exact exec_cryptRx_completion (f := f) hp hf

theorem eq_txCompletion {t : State} {f : TxFlight} (c : TxCommand) (hp : s.phase = .completion)
    (hf : s.txFlight = some f) (h : exec c.instr s = .next t) : t = s.txCompletion { f with cmd := c } :=
  (Host.Outcome.next.inj ((exec_tx_as c hp hf).symm.trans h)).symm

theorem eq_rxCompletion {t : State} {f : RxFlight} (c : RxCommand) (hp : s.phase = .completion)
    (hf : s.rxFlight = some f) (h : exec c.instr s = .next t) : t = s.rxCompletion { f with cmd := c } :=
  (Host.Outcome.next.inj ((exec_rx_as c hp hf).symm.trans h)).symm

theorem State.byteAt_congr {t : State} {sp : Space} (h : t.ram sp = s.ram sp) (htick : t.tick = s.tick) (i : Nat) :
    t.byteAt sp i = s.byteAt sp i := by
  rw [State.byteAt, State.byteAt, h, htick]

/-- A TX completion leaves every space but TXB. -/
theorem State.txCompletion_byteAt (f : TxFlight) {sp : Space} (h : sp ≠ .txb) (i : Nat) :
    (s.txCompletion f).byteAt sp i = s.byteAt sp i := by
  obtain ⟨w, hw⟩ := s.txCompletion_effect f
  rw [hw]
  cases sp
  case txb => exact absurd rfl h
  all_goals rfl

/-- An RX completion leaves every space but RXB. -/
theorem State.rxCompletion_byteAt (f : RxFlight) {sp : Space} (h : sp ≠ .rxb) (i : Nat) :
    (s.rxCompletion f).byteAt sp i = s.byteAt sp i := by
  obtain ⟨w, hw⟩ := s.rxCompletion_effect f
  rw [hw]
  cases sp
  case rxb => exact absurd rfl h
  all_goals rfl

theorem State.txCompletion_tick (f : TxFlight) : (s.txCompletion f).tick = s.tick := by
  obtain ⟨w, hw⟩ := s.txCompletion_effect f
  rw [hw]
  rfl

theorem State.rxCompletion_tick (f : RxFlight) : (s.rxCompletion f).tick = s.tick := by
  obtain ⟨w, hw⟩ := s.rxCompletion_effect f
  rw [hw]
  rfl

/-- TXB from the latched length on. -/
theorem State.txCompletion_byteAt_beyond (f : TxFlight) {i : Nat} (hi : f.len.toNat ≤ i) :
    (s.txCompletion f).byteAt .txb i = s.byteAt .txb i := by
  obtain hkept | ⟨-, -, bs, hbs, hstore⟩ := (s.txCompletion_done f).buffer
  · exact State.byteAt_congr (sp := .txb) hkept (s.txCompletion_tick f) i
  · exact State.byteAt_beside_store hstore (s.txCompletion_tick f) (.inr (by omega))

/-- FRAME.WR and SEND of class None write no memory. -/
theorem State.txCompletion_byteAt_clear (f : TxFlight)
    (hf : f.cmd = .frameWr ∨ (f.cmd = .send ∧ classify s.cfg .tx f.opc = .none)) (sp : Space) (i : Nat) :
    (s.txCompletion f).byteAt sp i = s.byteAt sp i := by
  by_cases hsp : sp = .txb
  · subst hsp
    obtain hkept | ⟨hne, henc, -⟩ := (s.txCompletion_done f).buffer
    · exact State.byteAt_congr (sp := .txb) hkept (s.txCompletion_tick f) i
    · obtain hfr | ⟨hsend, hnone⟩ := hf
      · exact absurd hfr hne
      · exact absurd hnone (henc hsend)
  · exact State.txCompletion_byteAt f hsp i

/-- RXB after FRAME.RD and RECV, from the length of the payload on. -/
theorem State.rxCompletion_byteAt_beyond {f : RxFlight} (hc : f.cmd ≠ .cryptRx) {i : Nat}
    (hi : (s.rxCompletion f).rxbLen.toNat ≤ i) : (s.rxCompletion f).byteAt .rxb i = s.byteAt .rxb i := by
  have htick := s.rxCompletion_tick f
  cases (s.rxCompletion_done f).buffer with
  | kept hrxb => exact State.byteAt_congr (sp := .rxb) hrxb htick i
  | payload q p rest _ _ hd hlen _ _ hbytes =>
    have hp := decodeFrame_length_le hd
    rw [hlen, BitVec.toNat_ofNat, Nat.mod_eq_of_lt (by omega)] at hi
    obtain hrxb | ⟨bs, hbs, hrxb⟩ := hbytes
    · exact State.byteAt_beside_store hrxb htick (.inr (by omega))
    · rw [State.byteAt, State.byteAt, htick, show (s.rxCompletion f).ram .rxb = _ from hrxb, Memory.byte?_store,
        if_neg (by omega), Memory.byte?_store, if_neg (by omega)]
      rfl
  | window _ hcmd => exact absurd hcmd hc

/-- A read that finds no payload leaves RXB. -/
theorem State.rxCompletion_byteAt_noPayload {f : RxFlight} {q : RxStream} (hc : f.cmd ≠ .cryptRx) (hq : s.rxs = some q)
    (hno : ∀ p, q.frameRead ≠ .payload p) (i : Nat) : (s.rxCompletion f).byteAt .rxb i = s.byteAt .rxb i := by
  cases (s.rxCompletion_done f).buffer with
  | kept hrxb => exact State.byteAt_congr (sp := .rxb) hrxb (s.rxCompletion_tick f) i
  | payload q' p rest _ hq' hd =>
    obtain rfl : q = q' := Option.some.inj (hq.symm.trans hq')
    exact absurd (RxStream.frameRead_payload hd) (hno p)
  | window _ hcmd => exact absurd hcmd hc

/-- RXB after CRYPT.RX, beside the latched window. -/
theorem State.rxCompletion_byteAt_window {f : RxFlight} (hc : f.cmd = .cryptRx) {i : Nat}
    (hi : i < f.off.toNat ∨ f.off.toNat + f.blen.toNat ≤ i) :
    (s.rxCompletion f).byteAt .rxb i = s.byteAt .rxb i := by
  cases (s.rxCompletion_done f).buffer with
  | kept hrxb => exact State.byteAt_congr (sp := .rxb) hrxb (s.rxCompletion_tick f) i
  | payload _ _ _ hne => exact absurd hc hne
  | window bs _ hbs hrxb => exact State.byteAt_beside_store hrxb (s.rxCompletion_tick f) (by omega)

/-! ### The two directions do not read what the other writes (20_memory R76) -/

theorem State.applyTx_applyRx (s : State) (w : TxEffect) (v : RxEffect) :
    (s.applyTx w).applyRx v = (s.applyRx v).applyTx w := by
  obtain ⟨_, _, _, _, _, _, _, _, txDead⟩ := w
  obtain ⟨_, _, _, _, _, _, _, _, _, _, _, _, rxDead⟩ := v
  cases txDead <;> cases rxDead <;> rfl

theorem State.applyTx_dead (s : State) (w : TxEffect) :
    { s with sess := .dead }.applyTx w = { s.applyTx w with sess := .dead } := by
  rw [State.applyTx, State.applyTx, ite_self]

theorem State.raise_tx_applyRx (v : RxEffect) (e : Status) : (s.applyRx v).raise .tx e = (s.raise .tx e).applyRx v := by
  cases h : e.fatal
  · rw [State.raise_tx_refusal e h, State.raise_tx_refusal e h]
    rfl
  · rw [State.raise_tx_fatal e h, State.raise_tx_fatal e h, State.applyRx, State.applyRx, ite_self]

theorem State.raise_rx_applyTx (w : TxEffect) (e : Status) : (s.applyTx w).raise .rx e = (s.raise .rx e).applyTx w := by
  cases h : e.fatal
  · rw [State.raise_rx_refusal e h, State.raise_rx_refusal e h]
    rfl
  · rw [State.raise_rx_fatal e h, State.raise_rx_fatal e h, State.applyTx, State.applyTx, ite_self]

theorem State.frameWrite_applyRx (v : RxEffect) (p : List Byte) :
    (s.applyRx v).frameWrite p = (s.frameWrite p).applyRx v := by
  by_cases h : maxPayload < p.length
  · simp only [State.frameWrite, if_pos h, State.raise_tx_applyRx]
  · simp only [State.frameWrite, if_neg h]
    rfl

theorem State.sendEncrypted_applyRx (v : RxEffect) (cls : Cls) (ord : Byte) (cbody : List Byte) (a : Half) (b : Byte)
    (p : List Byte) :
    (s.applyRx v).sendEncrypted cls ord cbody a b p = (s.sendEncrypted cls ord cbody a b p).applyRx v :=
  State.frameWrite_applyRx
    (s := { s with
      txClass := cls, txb := s.txb.store 0 cbody, lcg := lcgNext s.lcg, txA := a, txB := b, ord := ord + 1#8 }) v p

/-- SEND of an encrypted class without its key. -/
theorem State.sendComplete_noKey {f : TxFlight} (hne : classify s.cfg .tx f.opc ≠ .none)
    (hkey : s.effectiveKey (classify s.cfg .tx f.opc) (outboundA (lcgNext s.lcg)) bTx = none) :
    s.sendComplete f = { s with txClass := classify s.cfg .tx f.opc }.raise .tx .noKeyMaterial := by
  simp only [State.sendComplete, if_neg hne, hkey]

/-- SEND of an encrypted class with its key (46_send_recv R270, R273). -/
theorem State.sendComplete_key {f : TxFlight} {key : Key} (hne : classify s.cfg .tx f.opc ≠ .none)
    (hkey : s.effectiveKey (classify s.cfg .tx f.opc) (outboundA (lcgNext s.lcg)) bTx = some key) :
    s.sendComplete f =
      if maxPayload < s.overhead (classify s.cfg .tx f.opc) + f.len.toNat then
        { s with txClass := classify s.cfg .tx f.opc }.raise .tx .payloadTooLarge
      else
        s.sendEncrypted (classify s.cfg .tx f.opc) s.ord (crypt (s.memRead .txb 0 f.len.toNat) s.ord key (s.salt .tx))
          (outboundA (lcgNext s.lcg)) bTx
          (s.encryptedPayload (classify s.cfg .tx f.opc) f.opc s.ord
            (crypt (s.memRead .txb 0 f.len.toNat) s.ord key (s.salt .tx)) (outboundA (lcgNext s.lcg)) bTx) := by
  simp only [State.sendComplete, if_neg hne, hkey]

theorem State.sendComplete_applyRx (v : RxEffect) (f : TxFlight) :
    (s.applyRx v).sendComplete f = (s.sendComplete f).applyRx v := by
  by_cases hcls : classify s.cfg .tx f.opc = .none
  · rw [State.sendComplete_none hcls, State.sendComplete_none (s := s.applyRx v) hcls]
    exact State.frameWrite_applyRx (s := { s with txClass := .none }) v _
  cases hkey : s.effectiveKey (classify s.cfg .tx f.opc) (outboundA (lcgNext s.lcg)) bTx with
  | none =>
    rw [State.sendComplete_noKey hcls hkey, State.sendComplete_noKey (s := s.applyRx v) hcls hkey]
    exact State.raise_tx_applyRx (s := { s with txClass := classify s.cfg .tx f.opc }) v _
  | some key =>
    rw [State.sendComplete_key hcls hkey, State.sendComplete_key (s := s.applyRx v) hcls hkey]
    refine Eq.trans (if_congr Iff.rfl ?_ ?_) (apply_ite (State.applyRx · v) _ _ _).symm
    · exact State.raise_tx_applyRx (s := { s with txClass := classify s.cfg .tx f.opc }) v _
    · exact State.sendEncrypted_applyRx v ..

theorem State.cryptTxComplete_applyRx (v : RxEffect) (f : TxFlight) :
    (s.applyRx v).cryptTxComplete f = (s.cryptTxComplete f).applyRx v := by
  have hsame : (s.applyRx v).rawKey = s.rawKey := rfl
  cases hkey : s.rawKey with
  | none => simp only [State.cryptTxComplete, hsame, hkey, State.raise_tx_applyRx]
  | some key =>
    simp only [State.cryptTxComplete, hsame, hkey]
    rfl

/-- A TX completion after an RX completion's writes is the TX completion, and then those writes. -/
theorem State.txCompletion_applyRx (v : RxEffect) (f : TxFlight) :
    (s.applyRx v).txCompletion f = (s.txCompletion f).applyRx v := by
  unfold State.txCompletion
  cases f.cmd
  · exact State.frameWrite_applyRx v _
  · exact State.sendComplete_applyRx v f
  · exact State.cryptTxComplete_applyRx v f

theorem State.deliverClassified_applyTx (w : TxEffect) (p : List Byte) :
    (s.applyTx w).deliverClassified p = (s.deliverClassified p).applyTx w := by
  cases p with
  | nil => exact State.raise_rx_applyTx (s := (s.storePayload []).setWindow 0 0) w .emptyPayload
  | cons opc body =>
    by_cases hcls : classify s.cfg .rx opc = .none
    · rw [State.deliverClassified_none hcls, State.deliverClassified_none (s := s.applyTx w) hcls]
      rfl
    cases hsplit : splitEncrypted (opc :: body) with
    | none =>
      have hshort := (splitEncrypted_none _).1 hsplit
      rw [State.deliverClassified_short hcls hshort, State.deliverClassified_short (s := s.applyTx w) hcls hshort]
      exact (State.applyTx_dead (s.undecrypted opc (opc :: body) _) w).symm
    | some parts =>
      obtain ⟨opc', ord, c, t0, t1, t2⟩ := parts
      have hp := splitEncrypted_some hsplit
      obtain rfl : opc = opc' := List.head_eq_of_cons_eq hp
      rw [hp]
      rcases hab : trailerUnpack s.cfg.trailerOrder t0 t1 t2 with ⟨a, b⟩
      cases hkey : s.effectiveKey (classify s.cfg .rx opc) a b with
      | none =>
        have hnone := fun a b => (State.effectiveKey_eq_none a b hcls).2 ((State.effectiveKey_eq_none _ _ hcls).1 hkey)
        have hlong : 5 ≤ (opc :: ord :: (c ++ [t0, t1, t2])).length := by rw [encryptedFields_length]; omega
        rw [State.deliverClassified_noKey hcls hlong hnone,
          State.deliverClassified_noKey (s := s.applyTx w) hcls hlong hnone]
        rfl
      | some key =>
        rw [State.deliverClassified_key hcls hab hkey, State.deliverClassified_key (s := s.applyTx w) hcls hab hkey]
        rfl

theorem State.frameReadThen_applyTx (w : TxEffect) {k : State → List Byte → State}
    (hk : ∀ (u : State) (p : List Byte), k (u.applyTx w) p = (k u p).applyTx w) :
    (s.applyTx w).frameReadThen k = (s.frameReadThen k).applyTx w := by
  have hsame : (s.applyTx w).rxs = s.rxs := rfl
  unfold State.frameReadThen
  rw [hsame]
  split
  case h_1 | h_2 => rfl
  case h_3 p _ => exact hk (s.takeFrame p) p
  case h_4 e taken _ => exact State.raise_rx_applyTx (s := s.rxTake taken) w e

theorem State.cryptRxComplete_applyTx (w : TxEffect) (f : RxFlight) :
    (s.applyTx w).cryptRxComplete f = (s.cryptRxComplete f).applyTx w := by
  have hsame : (s.applyTx w).rawKey = s.rawKey := rfl
  cases hkey : s.rawKey with
  | none => simp only [State.cryptRxComplete, hsame, hkey, State.raise_rx_applyTx]
  | some key =>
    simp only [State.cryptRxComplete, hsame, hkey]
    rfl

/-- An RX completion after a TX completion's writes is the RX completion, and then those writes. -/
theorem State.rxCompletion_applyTx (w : TxEffect) (f : RxFlight) :
    (s.applyTx w).rxCompletion f = (s.rxCompletion f).applyTx w := by
  unfold State.rxCompletion
  cases f.cmd
  · exact State.frameReadThen_applyTx w fun _ _ => rfl
  · exact State.frameReadThen_applyTx w fun _ _ => State.deliverClassified_applyTx w _
  · exact State.cryptRxComplete_applyTx w f

/-- The two completions of commands in flight together, in either order. -/
theorem State.completions_commute (s : State) (f : TxFlight) (g : RxFlight) :
    (s.txCompletion f).rxCompletion g = (s.rxCompletion g).txCompletion f := by
  obtain ⟨w, hw⟩ := s.txCompletion_effect f
  obtain ⟨v, hv⟩ := s.rxCompletion_effect g
  rw [hw, State.rxCompletion_applyTx, hv, State.txCompletion_applyRx, hw, State.applyTx_applyRx]

/-! ### The obligations -/

/-- Settles O38: TXB is stored to below the latched length; FRAME.WR and a clear SEND store nothing. -/
theorem txCommandsWriteOnlyTxb : Obligations.TxCommandsWriteOnlyTxb := by
  intro s t f hp hf
  have hbeyond (c : TxCommand) (sp : Space) (i : Nat) (hi : sp = .txb → f.len.toNat ≤ i) :
      (s.txCompletion { f with cmd := c }).byteAt sp i = s.byteAt sp i := by
    by_cases hsp : sp = .txb
    · subst hsp
      exact State.txCompletion_byteAt_beyond { f with cmd := c } (hi rfl)
    · exact State.txCompletion_byteAt _ hsp i
  refine ⟨fun h => ?_, fun h => ?_⟩
  · obtain h | h := h
    · rw [eq_txCompletion .send hp hf h]
      exact hbeyond .send
    · rw [eq_txCompletion .cryptTx hp hf h]
      exact hbeyond .cryptTx
  · obtain h | ⟨h, hcls⟩ := h
    · rw [eq_txCompletion .frameWr hp hf h]
      exact State.txCompletion_byteAt_clear _ (.inl rfl)
    · rw [eq_txCompletion .send hp hf h]
      exact State.txCompletion_byteAt_clear _ (.inr ⟨rfl, hcls⟩)

/-- Settles O39: RXB is stored to inside the payload or the latched window. -/
theorem rxCommandsWriteOnlyRxb : Obligations.RxCommandsWriteOnlyRxb := by
  intro s t f hp hf
  have hread : exec .frameRd s = .next t ∨ exec .recv s = .next t →
      ∃ c : RxCommand, c ≠ .cryptRx ∧ t = s.rxCompletion { f with cmd := c } := by
    rintro (h | h)
    · exact ⟨.frameRd, by decide, eq_rxCompletion .frameRd hp hf h⟩
    · exact ⟨.recv, by decide, eq_rxCompletion .recv hp hf h⟩
  have hrxb (g : RxFlight) {sp : Space} {i : Nat}
      (h : sp = .rxb → (s.rxCompletion g).byteAt .rxb i = s.byteAt .rxb i) :
      (s.rxCompletion g).byteAt sp i = s.byteAt sp i := by
    by_cases hsp : sp = .rxb
    · subst hsp
      exact h rfl
    · exact State.rxCompletion_byteAt g hsp i
  refine ⟨fun h sp i hi => ?_, fun q hq hno h sp i => ?_, fun h sp i hi => ?_⟩
  · obtain ⟨c, hc, rfl⟩ := hread h
    exact hrxb _ fun hsp => State.rxCompletion_byteAt_beyond (f := { f with cmd := c }) hc (hi hsp)
  · obtain ⟨c, hc, rfl⟩ := hread h
    exact hrxb _ fun _ => State.rxCompletion_byteAt_noPayload (f := { f with cmd := c }) hc hq hno i
  · rw [eq_rxCompletion .cryptRx hp hf h]
    exact hrxb _ fun hsp => State.rxCompletion_byteAt_window (f := { f with cmd := .cryptRx }) rfl (hi hsp)

/-- Settles O51: each completion keeps the other's command in flight, and their writes commute. -/
theorem txAndRxCompletionsCommute : Obligations.TxAndRxCompletionsCommute := by
  intro s f g hp hf hg
  have htx : (s.txCompletion f).phase = .completion ∧ (s.txCompletion f).rxFlight = some g := by
    obtain ⟨w, hw⟩ := s.txCompletion_effect f
    rw [hw]
    exact ⟨hp, hg⟩
  have hrx : (s.rxCompletion g).phase = .completion ∧ (s.rxCompletion g).txFlight = some f := by
    obtain ⟨v, hv⟩ := s.rxCompletion_effect g
    rw [hv]
    exact ⟨hp, hf⟩
  refine ⟨_, _, _, exec_tx_completion hp hf, exec_rx_completion htx.1 htx.2, exec_rx_completion hp hg, ?_⟩
  rw [exec_tx_completion hrx.1 hrx.2, State.completions_commute]

end Sys2Proof.Machine
end

section
/-! The obligations over every step: the invariant of the states a run from reset reaches, the two counters of encrypted
packets (60_exceptions R351), and which step writes the session state, the key material, PB and SKT. -/

namespace Sys2Proof.Machine

variable {s t : State}

/-! ### Steps that leave the session and the keys -/

/-- Nothing differs but ISSUE_STATUS, the operand registers and the model's own fields. -/
def State.HostOnly (s t : State) : Prop :=
  t = { s with
    issueStatus := t.issueStatus, argSeed := t.argSeed, pbLen := t.pbLen, txOpc := t.txOpc, txbLen := t.txbLen
    argOrdTx := t.argOrdTx, argOrdRx := t.argOrdRx, moves := t.moves, tick := t.tick, hostPort := t.hostPort }

/-- A host write of a register (10_state R23). -/
theorem State.hostOnly_writeReg (s : State) (rest : List Move) (no : Byte) (v : Word) :
    s.HostOnly ((s.advance rest).writeReg no v) := by
  unfold State.writeReg
  split <;> rfl

/-- The session, its counters, the key material, SKT and the parameters are the same. -/
structure State.KeepsSession (s t : State) : Prop where
  cfg : t.cfg = s.cfg
  sess : t.sess = s.sess
  ord : t.ord = s.ord
  lcg : t.lcg = s.lcg
  seed : t.seed = s.seed
  keyLen : t.keyLen = s.keyLen
  saltTx : t.saltTx = s.saltTx
  saltRx : t.saltRx = s.saltRx
  keyRaw : t.keyRaw = s.keyRaw
  skt : t.skt = s.skt

theorem State.HostOnly.keepsSession (h : s.HostOnly t) : s.KeepsSession t := by
  rw [h]
  exact ⟨rfl, rfl, rfl, rfl, rfl, rfl, rfl, rfl, rfl, rfl⟩

/-- The completion of the TX command in flight, as one step. -/
theorem tx_step (hp : s.phase = .issue) (f : TxFlight) (rest : List Move) :
    let u : State := { s.advance rest with phase := .completion }
    (∃ w, { u.txCompletion f with phase := .issue } = (s.advance rest).applyTx w) ∧
      TxDone (s.advance rest) f { u.txCompletion f with phase := .issue } := by
  intro u
  obtain ⟨w, hw⟩ := u.txCompletion_effect f
  obtain ⟨hbuf, htxs, hcount, hsess⟩ := u.txCompletion_done f
  exact ⟨⟨w, by rw [hw, ← hp]; rfl⟩, hbuf, htxs, hcount, hsess⟩

/-- The completion of the RX command in flight, as one step. -/
theorem rx_step (hp : s.phase = .issue) (f : RxFlight) (rest : List Move) :
    let u : State := { s.advance rest with phase := .completion }
    (∃ w, { u.rxCompletion f with phase := .issue } = (s.advance rest).applyRx w) ∧
      RxDone (s.advance rest) f { u.rxCompletion f with phase := .issue } := by
  intro u
  obtain ⟨w, hw⟩ := u.rxCompletion_effect f
  obtain ⟨hbuf, hrxs, hsess⟩ := u.rxCompletion_done f
  refine ⟨⟨w, by rw [hw, ← hp]; rfl⟩, ?_, hrxs, hsess⟩
  cases hbuf with
  | kept hrxb hlen hoff hblen hfl => exact .kept hrxb hlen hoff hblen hfl
  | payload q p after hc hq hd hlen hwin hfl hrxb => exact .payload q p after hc hq hd hlen hwin hfl hrxb
  | window bs hc hbs hrxb hlen hoff hblen hfl => exact .window bs hc hbs hrxb hlen hoff hblen hfl

/-- What can change the session or the keys: a CMD write and the two completion steps (60_exceptions R360). PB has the
host's write besides. -/
theorem step_writers (hp : s.phase = .issue) (h : step s = .next t) :
    (∃ v rest, s.moves = .writeReg 0#8 v :: rest ∧ IssueOutcome (s.advance rest) (v.setWidth 8) t) ∨
    (∃ f rest w, s.moves = .tx :: rest ∧ s.txFlight = some f ∧ t = (s.advance rest).applyTx w ∧
      TxDone (s.advance rest) f t) ∨
    (∃ f rest w, s.moves = .rx :: rest ∧ s.rxFlight = some f ∧ t = (s.advance rest).applyRx w ∧
      RxDone (s.advance rest) f t) ∨
    (s.KeepsSession t ∧ (t.pb = s.pb ∨ ∃ rest i bs, s.moves = .memWrite .pb i bs :: rest)) := by
  have hsame : s.KeepsSession s := ⟨rfl, rfl, rfl, rfl, rfl, rfl, rfl, rfl, rfl, rfl⟩
  cases step_outcome h with
  | command v rest _ hm hi => exact .inl ⟨v, rest, hm, issueCommand_outcome hp hi⟩
  | txCompletes f rest hm hf =>
    obtain ⟨⟨w, hw⟩, hdone⟩ := tx_step hp f rest
    exact .inr (.inl ⟨f, rest, w, hm, hf, hw, hdone⟩)
  | rxCompletes f rest hm hf =>
    obtain ⟨⟨w, hw⟩, hdone⟩ := rx_step hp f rest
    exact .inr (.inr (.inl ⟨f, rest, w, hm, hf, hw, hdone⟩))
  | register no v rest _ hm =>
    have hreg := s.hostOnly_writeReg rest no v
    exact .inr (.inr (.inr ⟨hreg.keepsSession, .inl (by rw [hreg])⟩))
  | writesPb i bs rest hm _ => exact .inr (.inr (.inr ⟨{ hsame with }, .inr ⟨rest, i, bs, hm⟩⟩))
  | nothing _ => exact .inr (.inr (.inr ⟨hsame, .inl rfl⟩))
  | passes rest => exact .inr (.inr (.inr ⟨{ hsame with }, .inl rfl⟩))
  | writesTxb i bs rest _ _ _ => exact .inr (.inr (.inr ⟨{ hsame with }, .inl rfl⟩))
  | reads x rest => exact .inr (.inr (.inr ⟨{ hsame with }, .inl rfl⟩))
  | stream q q' rest _ => exact .inr (.inr (.inr ⟨{ hsame with }, .inl rfl⟩))

/-! ### The invariant -/

/-- The invariant speaks of none of the fields that the host and the schedule alone move. -/
theorem State.Inv.hostOnly (h : s.Inv) (ht : s.HostOnly t) : t.Inv := by
  rw [ht]
  exact ⟨State.memoriesOk_congr h.memories fun sp => by cases sp <;> rfl, h.issuePhase, h.noSession, h.bound, h.noKey,
    h.saltTables, h.keyHeld, h.sktDigits, h.window, h.payloadHeld, h.txLength, h.rxWindow⟩

/-- Power-on, and RESET (10_state R55). -/
theorem State.resetMachine_inv (hp : s.phase = .issue) : s.resetMachine.Inv where
  memories sp := by
    cases sp
    case encTx | encRx => exact rom_memory_ok _
    all_goals exact ⟨List.Pairwise.nil, nofun⟩
  issuePhase := hp
  noSession _ :=
    ⟨rfl, rfl, rfl, rfl, rfl, rfl, rfl, rfl, ⟨rfl, rfl, rfl, rfl, rfl, rfl, rfl, rfl, rfl, rfl, rfl, rfl, rfl⟩⟩
  bound hs := absurd rfl hs
  noKey _ := ⟨rfl, rfl⟩
  saltTables := nofun
  keyHeld := nofun
  sktDigits := nofun
  window := Nat.le_refl 0
  payloadHeld := nofun
  txLength := nofun
  rxWindow := nofun

/-- SESS.OPEN (47_session_system R302). -/
theorem State.Inv.openSession (h : s.Inv) (htx : s.txFlight = none) (hrx : s.rxFlight = none) : s.openSession.Inv where
  memories := State.memoriesOk_congr h.memories fun sp => by cases sp <;> rfl
  issuePhase := h.issuePhase
  noSession := nofun
  bound _ := ⟨rfl, rfl⟩
  noKey _ := ⟨rfl, rfl⟩
  saltTables := nofun
  keyHeld := nofun
  sktDigits := nofun
  window := Nat.le_refl 0
  payloadHeld := nofun
  txLength f hf := nomatch htx.symm.trans hf
  rxWindow f hf := nomatch hrx.symm.trans hf

/-- SESS.CLOSE (47_session_system R306). -/
theorem State.Inv.closeSession (h : s.Inv) (htx : s.txFlight = none) (hrx : s.rxFlight = none) :
    s.closeSession.Inv where
  memories := State.memoriesOk_congr h.memories fun sp => by cases sp <;> rfl
  issuePhase := h.issuePhase
  noSession _ :=
    ⟨htx, hrx, rfl, rfl, rfl, rfl, rfl, rfl, ⟨rfl, rfl, rfl, rfl, rfl, rfl, rfl, rfl, rfl, rfl, rfl, rfl, rfl⟩⟩
  bound hs := absurd rfl hs
  noKey _ := ⟨rfl, rfl⟩
  saltTables := nofun
  keyHeld := nofun
  sktDigits := nofun
  window := Nat.le_refl 0
  payloadHeld := nofun
  txLength f hf := nomatch htx.symm.trans hf
  rxWindow f hf := nomatch hrx.symm.trans hf

/-- SESS.KEY stores the two salt tables and the raw key that its valid bit promises (47_session_system R303). -/
theorem State.Inv.keyed (h : s.Inv) (hl : s.sess = .live) : s.keyed.Inv where
  __ := h
  memories := by
    have hlen (n : Byte) : n.toNat ≤ 255 := Nat.le_of_lt_succ n.isLt
    refine State.memoriesOk_of_stores h.memories fun sp => ?_
    cases sp
    case saltTx | saltRx => exact .inr (.inr ⟨0, _, by rw [saltBuild_length]; decide, rfl⟩)
    case keyRaw =>
      exact .inr (.inr ⟨0, _, by rw [State.memRead_length, Nat.zero_add]; exact hlen s.pbLen, rfl⟩)
    all_goals exact .inl rfl
  noSession hs := nomatch hl.symm.trans hs
  noKey := nofun
  saltTables _ i hi := by
    have hsalt (m : Memory) :
        (m.store 0 (saltBuild s.cfg s.argSeed)).byte? i = some (saltEntry s.cfg s.argSeed i) := by
      rw [Memory.byte?_store, saltBuild_length, if_pos ⟨Nat.zero_le i, by omega⟩, Nat.sub_zero,
        saltBuild_getElem? _ _ i hi]
    exact ⟨hsalt _, hsalt _⟩
  keyHeld _ i hi := by
    have hkey := Memory.store_held s.keyRaw 0 (s.memRead .pb 0 s.pbLen.toNat) i (Nat.zero_le i)
      (by rw [State.memRead_length, Nat.zero_add]; exact hi)
    exact Option.isSome_iff_exists.2 ⟨_, hkey⟩

/-- What an accepted SKT.GEN leaves (44_special_key_table R225). -/
def State.tabled (s : State) : State :=
  { s with skt := s.skt.store 0 (sktGen (s.memRead .pb 0 s.pbLen.toNat)), sktValid := true, issueStatus := .ok }

/-- SKT.GEN stores 1024 hexadecimal digits (44_special_key_table R221). -/
theorem State.Inv.tabled (h : s.Inv) (hl : s.sess = .live) : s.tabled.Inv where
  __ := h
  memories := by
    refine State.memoriesOk_of_stores h.memories fun sp => ?_
    cases sp
    case skt => exact .inr (.inr ⟨0, _, by rw [sktGen_length]; decide, rfl⟩)
    all_goals exact .inl rfl
  noSession hs := nomatch hl.symm.trans hs
  sktDigits _ i hi := by
    obtain ⟨hlen, hdigits, -⟩ := sktGenIsAlways1024HexDigits (s.memRead .pb 0 s.pbLen.toNat)
    exact ⟨_, Memory.store_held s.skt 0 _ i (Nat.zero_le i) (by omega), hdigits _ (List.getElem_mem _)⟩

/-- A TX command goes in flight with a legal length (47_session_system R300 steps 7, 9). -/
theorem State.Inv.txFlying (h : s.Inv) (hl : s.sess = .live) {f : TxFlight} (hf : f.len.toNat ≤ txbCap) :
    State.Inv { s with issueStatus := .ok, txFlight := some f } where
  __ := h
  memories := State.memoriesOk_congr h.memories fun sp => by cases sp <;> rfl
  noSession hs := nomatch hl.symm.trans hs
  txLength g hg := Option.some.inj hg ▸ hf

/-- An RX command goes in flight with the window as it stands (47_session_system R300 step 9). -/
theorem State.Inv.rxFlying (h : s.Inv) (hl : s.sess = .live) {f : RxFlight} (hf : f.off = s.rxOff ∧ f.blen = s.rxBlen) :
    State.Inv { s with issueStatus := .ok, rxFlight := some f } where
  __ := h
  memories := State.memoriesOk_congr h.memories fun sp => by cases sp <;> rfl
  noSession hs := nomatch hl.symm.trans hs
  rxWindow g hg := Option.some.inj hg ▸ hf

theorem State.Inv.issue {code : Byte} (h : s.Inv) (ht : IssueOutcome s code t) : t.Inv := by
  cases ht with
  | statusOnly e => exact h.hostOnly rfl
  | reset _ => exact State.resetMachine_inv h.issuePhase
  | opened _ htx hrx => exact h.openSession htx hrx
  | closed _ htx hrx => exact h.closeSession htx hrx
  | keyed _ hl _ => exact h.keyed hl
  | tabled _ hl => exact h.tabled hl
  | txFlying c hl _ hn => exact h.txFlying hl hn
  | rxFlying c hl _ => exact h.rxFlying hl ⟨rfl, rfl⟩

/-- A command in flight has a session. -/
theorem State.Inv.session_of_tx (h : s.Inv) {f : TxFlight} (hf : s.txFlight = some f) : s.sess ≠ .none := fun hs =>
  nomatch hf.symm.trans (h.noSession hs).1

theorem State.Inv.session_of_rx (h : s.Inv) {f : RxFlight} (hf : s.rxFlight = some f) : s.sess ≠ .none := fun hs =>
  nomatch hf.symm.trans (h.noSession hs).2.1

/-- A TX completion: TXB within its space, TXS still bound, nothing left in flight. -/
theorem State.Inv.applyTx (h : s.Inv) {f : TxFlight} (hf : s.txFlight = some f) {w : TxEffect}
    (hd : TxDone s f (s.applyTx w)) : (s.applyTx w).Inv where
  __ := h
  memories := by
    refine State.memoriesOk_of_stores h.memories fun sp => ?_
    cases sp
    case txb =>
      obtain hkept | ⟨-, -, bs, hbs, hstore⟩ := hd.buffer
      · exact .inl hkept
      · exact .inr (.inr ⟨0, bs, by rw [hbs, Nat.zero_add]; exact h.txLength f hf, hstore⟩)
    all_goals exact .inl rfl
  noSession hs := by
    have hsess := hd.session
    rw [hs] at hsess
    split at hsess
    · cases hsess
    · exact absurd hsess.symm (h.session_of_tx hf)
  bound _ := by
    obtain ⟨hrxs, htxs⟩ := h.bound (h.session_of_tx hf)
    exact ⟨hrxs, hd.stream.trans htxs⟩
  txLength := nofun

/-- What RXB and its registers need after an RX completion (10_state R34, R46). -/
structure State.RxbOk (s : State) : Prop where
  memory : s.rxb.wf ∧ ∀ c ∈ s.rxb, c.1 < 65535
  window : s.rxOff.toNat + s.rxBlen.toNat ≤ s.rxbLen.toNat
  held : ∀ i < s.rxbLen.toNat, (s.rxb.byte? i).isSome
  latched : ∀ f, s.rxFlight = some f → f.off = s.rxOff ∧ f.blen = s.rxBlen

theorem State.Inv.rxbOk (h : s.Inv) : s.RxbOk := ⟨h.memories .rxb, h.window, h.payloadHeld, h.rxWindow⟩

/-- A payload stored from index 0 is held, also where a part of it is stored again. -/
theorem State.RxbOk.completion (h : s.RxbOk) {f : RxFlight} (hf : s.rxFlight = some f) (hd : RxBuffer s f t) :
    t.RxbOk := by
  obtain ⟨⟨hwf, hlt⟩, hwin, hheld, hlatched⟩ := h
  cases hd with
  | kept hrxb hlen hoff hblen hfl =>
    refine ⟨by rw [hrxb]; exact ⟨hwf, hlt⟩, by rw [hlen, hoff, hblen]; exact hwin, by rw [hlen, hrxb]; exact hheld, ?_⟩
    rw [hoff, hblen]
    obtain hfl | hfl := hfl <;> rw [hfl]
    · exact hlatched
    · exact nofun
  | payload q p rest _ _ hdec hlen hwindow hfl hrxb =>
    have hp := decodeFrame_length_le hdec
    have hlen' : t.rxbLen.toNat = p.length := by rw [hlen, BitVec.toNat_ofNat, Nat.mod_eq_of_lt (by omega)]
    have hstored (i : Nat) (hi : i < p.length) : ((s.rxb.store 0 p).byte? i).isSome :=
      Option.isSome_iff_exists.2 ⟨_, Memory.store_held s.rxb 0 p i (Nat.zero_le i) (by omega)⟩
    have hwf' := Memory.store_wf hwf 0 p
    have hlt' := Memory.store_bounded hlt 0 p (by omega)
    refine ⟨?_, by rw [hlen']; exact hwindow, ?_, by rw [hfl]; exact nofun⟩
    · obtain hrxb | ⟨bs, hbs, hrxb⟩ := hrxb <;> rw [hrxb]
      · exact ⟨hwf', hlt'⟩
      · exact ⟨Memory.store_wf hwf' 2 bs, Memory.store_bounded hlt' 2 bs (by omega)⟩
    · rw [hlen']
      intro i hi
      obtain hrxb | ⟨bs, hbs, hrxb⟩ := hrxb <;> rw [hrxb]
      · exact hstored i hi
      · exact Memory.store_isSome 2 bs i (hstored i hi)
  | window bs _ hbs hrxb hlen hoff hblen hfl =>
    obtain ⟨hfoff, hfblen⟩ := hlatched f hf
    have hfits : f.off.toNat + bs.length ≤ 65535 := by
      have := s.rxbLen.isLt
      rw [hbs, hfoff, hfblen]
      omega
    refine ⟨?_, by rw [hlen, hoff, hblen]; exact hwin, ?_, by rw [hfl]; exact nofun⟩
    · rw [hrxb]
      exact ⟨Memory.store_wf hwf _ bs, Memory.store_bounded hlt _ bs hfits⟩
    · rw [hlen, hrxb]
      exact fun i hi => Memory.store_isSome _ bs i (hheld i hi)

/-- An RX completion: RXB and its window as above, RXS still bound. -/
theorem State.Inv.applyRx (h : s.Inv) {f : RxFlight} (hf : s.rxFlight = some f) {w : RxEffect}
    (hd : RxDone s f (s.applyRx w)) : (s.applyRx w).Inv where
  __ := h
  memories sp := by
    have hbefore := h.memories sp
    cases sp
    case rxb => exact (h.rxbOk.completion hf hd.buffer).memory
    all_goals exact hbefore
  noSession hs := by
    obtain hsess | ⟨hsess, -⟩ := hd.session
    · exact absurd (hsess.symm.trans hs) (h.session_of_rx hf)
    · exact nomatch hsess.symm.trans hs
  bound _ := by
    obtain ⟨hrxs, htxs⟩ := h.bound (h.session_of_rx hf)
    exact ⟨hd.stream.trans hrxs, htxs⟩
  window := (h.rxbOk.completion hf hd.buffer).window
  payloadHeld := (h.rxbOk.completion hf hd.buffer).held
  rxWindow := (h.rxbOk.completion hf hd.buffer).latched

/-- The host writes PB (20_memory R66). -/
theorem State.Inv.storePb (h : s.Inv) {i : Nat} {bs : List Byte} (hi : i + bs.length ≤ 255) :
    State.Inv { s with pb := s.pb.store i bs } where
  __ := h
  memories := by
    refine State.memoriesOk_of_stores h.memories fun sp => ?_
    cases sp
    case pb => exact .inr (.inr ⟨i, bs, hi, rfl⟩)
    all_goals exact .inl rfl

/-- The host writes TXB (20_memory R66). -/
theorem State.Inv.storeTxb (h : s.Inv) {i : Nat} {bs : List Byte} (hi : i + bs.length ≤ 65536) :
    State.Inv { s with txb := s.txb.store i bs } where
  __ := h
  memories := by
    refine State.memoriesOk_of_stores h.memories fun sp => ?_
    cases sp
    case txb => exact .inr (.inr ⟨i, bs, hi, rfl⟩)
    all_goals exact .inl rfl

/-- ENV feeds or closes a bound RXS, so there is a session (10_state R50). -/
theorem State.Inv.stream (h : s.Inv) {q : RxStream} (hq : s.rxs = some q) (q' : RxStream) :
    State.Inv { s with rxs := some q' } where
  __ := h
  memories := State.memoriesOk_congr h.memories fun sp => by cases sp <;> rfl
  noSession hs := by
    obtain ⟨-, -, hrxs, -⟩ := h.noSession hs
    exact nomatch hq.symm.trans hrxs
  bound hs := ⟨rfl, (h.bound hs).2⟩

/-- Every step there is keeps the invariant. -/
theorem State.Inv.step (h : s.Inv) (ht : StepOutcome s t) : t.Inv := by
  have hadvance (rest : List Move) : (s.advance rest).Inv := h.hostOnly rfl
  cases ht with
  | nothing _ => exact h
  | command v rest _ _ hi => exact (hadvance rest).issue (issueCommand_outcome h.issuePhase hi)
  | register no v rest _ _ => exact h.hostOnly (s.hostOnly_writeReg rest no v)
  | txCompletes f rest _ hf =>
    obtain ⟨⟨w, hw⟩, hdone⟩ := tx_step h.issuePhase f rest
    rw [hw] at hdone ⊢
    exact (hadvance rest).applyTx hf hdone
  | rxCompletes f rest _ hf =>
    obtain ⟨⟨w, hw⟩, hdone⟩ := rx_step h.issuePhase f rest
    rw [hw] at hdone ⊢
    exact (hadvance rest).applyRx hf hdone
  | passes rest => exact hadvance rest
  | writesPb i bs rest _ hi => exact (hadvance rest).storePb hi
  | writesTxb i bs rest _ hi _ => exact (hadvance rest).storeTxb hi
  | reads x rest => exact h.hostOnly rfl
  | stream q q' rest hq => exact (hadvance rest).stream hq q'

/-! ### The counters (60_exceptions R351; 46_send_recv R275, R285) -/

/-- A CMD write leaves ORD and LCG, or takes them back to the start of a session. -/
theorem IssueOutcome.counters {code : Byte} (h : IssueOutcome s code t) :
    (t.ord = s.ord ∧ t.lcg = s.lcg) ∨ (code ∈ [0x01#8, 0x02#8, 0x05#8] ∧ t.ord = 0#8 ∧ t.lcg = 1#32) := by
  cases h with
  | reset hc | opened hc _ _ | closed hc _ _ => exact .inr ⟨by rw [hc]; decide, rfl, rfl⟩
  | statusOnly _ | keyed _ _ _ | tabled _ _ | txFlying _ _ _ _ | rxFlying _ _ _ => exact .inl ⟨rfl, rfl⟩

/-- How a step moves ORD and LCG: not at all, by one encrypted SEND, or to the start of a session. -/
theorem step_counters (hp : s.phase = .issue) (h : step s = .next t) :
    (t.ord = s.ord ∧ t.lcg = s.lcg) ∨
    (∃ rest f, s.moves = .tx :: rest ∧ s.txFlight = some f ∧ f.cmd = .send ∧ classify s.cfg .tx f.opc ≠ .none ∧
      t.txStatus = .ok ∧ t.ord = s.ord + 1#8 ∧ t.lcg = lcgNext s.lcg) ∨
    (∃ rest v, s.moves = .writeReg 0#8 v :: rest ∧ v.setWidth 8 ∈ [0x01#8, 0x02#8, 0x05#8] ∧
      t.ord = 0#8 ∧ t.lcg = 1#32) := by
  obtain ⟨v, rest, hm, hi⟩ | ⟨f, rest, w, hm, hf, -, hdone⟩ | ⟨f, rest, w, -, -, rfl, -⟩ | ⟨hkeeps, -⟩ :=
    step_writers hp h
  · exact hi.counters.imp_right fun hstart => .inr ⟨rest, v, hm, hstart⟩
  · exact hdone.counters.imp_right fun hsent => .inl ⟨rest, f, hm, hf, hsent⟩
  · exact .inl ⟨rfl, rfl⟩
  · exact .inl ⟨hkeeps.ord, hkeeps.lcg⟩

/-- One more encrypted SEND is counted by both. -/
theorem State.countsSends_succ (h : s.countsSends) (hord : t.ord = s.ord + 1#8) (hlcg : t.lcg = lcgNext s.lcg) :
    t.countsSends := by
  obtain ⟨k, hk, hk'⟩ := h
  exact ⟨k + 1, by rw [hord, hk, BitVec.ofNat_add], by rw [hlcg, hk', Function.iterate_succ_apply']⟩

/-! ### The session and the keys -/

/-- How a CMD write moves SESS. -/
theorem IssueOutcome.session {code : Byte} (h : IssueOutcome s code t) :
    t.sess = s.sess ∨ (t.sess = .live ∧ code = 0x02#8) ∨ (t.sess = .none ∧ code ∈ [0x01#8, 0x05#8]) := by
  cases h with
  | opened hc _ _ => exact .inr (.inl ⟨rfl, hc⟩)
  | reset hc | closed hc _ _ => exact .inr (.inr ⟨rfl, by rw [hc]; decide⟩)
  | statusOnly _ | keyed _ _ _ | tabled _ _ | txFlying _ _ _ _ | rxFlying _ _ _ => exact .inl rfl

/-- The seed, the key and the salt tables have one writer, SESS.KEY, which is refused with CIPHER_VALID
(47_session_system R311); what else writes them clears CIPHER_VALID. -/
theorem IssueOutcome.keyMaterial {code : Byte} (h : IssueOutcome s code t) (hs : s.cipherValid = true)
    (ht : t.cipherValid = true) :
    t.seed = s.seed ∧ t.keyLen = s.keyLen ∧ t.saltTx = s.saltTx ∧ t.saltRx = s.saltRx ∧ t.keyRaw = s.keyRaw := by
  cases h with
  | reset _ | opened _ _ _ | closed _ _ _ => cases ht
  | keyed _ _ hv => exact nomatch hs.symm.trans hv
  | statusOnly _ | tabled _ _ | txFlying _ _ _ _ | rxFlying _ _ _ => exact ⟨rfl, rfl, rfl, rfl, rfl⟩

/-- Of the CMD writes only RESET writes PB, and only RESET and SKT.GEN write SKT; none writes the parameters. -/
theorem IssueOutcome.buffers {code : Byte} (h : IssueOutcome s code t) :
    t.cfg = s.cfg ∧ (t.pb = s.pb ∨ code = 0x01#8) ∧ (t.skt = s.skt ∨ code ∈ [0x01#8, 0x04#8]) := by
  cases h with
  | reset hc => exact ⟨rfl, .inr hc, .inr (by rw [hc]; decide)⟩
  | tabled hc _ => exact ⟨rfl, .inl rfl, .inr (by rw [hc]; decide)⟩
  | statusOnly _ | opened _ _ _ | closed _ _ _ | keyed _ _ _ | txFlying _ _ _ _ | rxFlying _ _ _ =>
    exact ⟨rfl, .inl rfl, .inl rfl⟩

/-! ### The obligations -/

/-- Settles O52: power-on is RESET of itself, and no encrypted SEND counts 0 and 1. -/
theorem resetSatisfiesTheInvariant : Obligations.ResetSatisfiesTheInvariant :=
  ⟨State.resetMachine_inv (s := .reset) rfl, 0, rfl, rfl⟩

/-- Settles O53: each outcome of a step writes nothing that the invariant speaks of, or writes it as the invariant
says. -/
theorem everyStepKeepsTheInvariant : Obligations.EveryStepKeepsTheInvariant :=
  fun _ _ h hstep => h.step (step_outcome hstep)

/-- Settles O54: no step moves one counter without the other. -/
theorem everyStepKeepsOrdAndLcgInStep : Obligations.EveryStepKeepsOrdAndLcgInStep := by
  intro s t hp hcount hstep
  obtain ⟨hord, hlcg⟩ | ⟨rest, f, -, -, -, -, -, hord, hlcg⟩ | ⟨rest, v, -, -, hord, hlcg⟩ := step_counters hp hstep
  · obtain ⟨k, hk, hk'⟩ := hcount
    exact ⟨k, hord.trans hk, hlcg.trans hk'⟩
  · exact State.countsSends_succ hcount hord hlcg
  · exact ⟨0, hord, hlcg⟩

/-- Settles O55: the other steps leave both counters. -/
theorem onlyEncryptedSendsAdvanceTheOrdinal : Obligations.OnlyEncryptedSendsAdvanceTheOrdinal := by
  intro s t hp hstep hmoved
  obtain ⟨hord, hlcg⟩ | hmoves := step_counters hp hstep
  · exact absurd hmoved (by simp [hord, hlcg])
  · exact hmoves

/-- Settles O56: a completion has a session, so the one it kills was LIVE. -/
theorem sessionStateTransitions : Obligations.SessionStateTransitions := by
  intro s t h hstep hne
  have hlive (hdead : t.sess = .dead) (hs : s.sess ≠ .none) : s.sess = .live := by
    cases hsess : s.sess
    case live => rfl
    case none => exact absurd hsess hs
    case dead => exact absurd (hdead.trans hsess.symm) hne
  obtain ⟨v, rest, hm, hi⟩ | ⟨f, rest, w, hm, hf, rfl, hdone⟩ | ⟨f, rest, w, hm, hf, rfl, hdone⟩ | ⟨hkeeps, -⟩ :=
    step_writers h.issuePhase hstep
  · obtain hsame | ⟨hs, hc⟩ | ⟨hs, hc⟩ := hi.session
    · exact absurd hsame hne
    · exact .inl ⟨hs, rest, v, hm, hc⟩
    · exact .inr (.inl ⟨hs, rest, v, hm, hc⟩)
  · have hsess := hdone.session
    split at hsess
    case isTrue hfatal =>
      exact .inr (.inr ⟨hsess, hlive hsess (h.session_of_tx hf), .inl ⟨rest, hm, hfatal, rfl⟩⟩)
    case isFalse => exact absurd hsess hne
  · obtain hsame | ⟨hsess, hfatal, hnone⟩ := hdone.session
    · exact absurd hsame hne
    · exact .inr (.inr ⟨hsess, hlive hsess (h.session_of_rx hf), .inr ⟨rest, hm, hfatal, hnone⟩⟩)
  · exact absurd hkeeps.sess hne

/-- Settles O57: a completion writes no key material, and a CMD write only together with CIPHER_VALID. -/
theorem keyMaterialIsImmutableInASession : Obligations.KeyMaterialIsImmutableInASession := by
  intro s t hp hstep hs ht
  obtain ⟨v, rest, -, hi⟩ | ⟨f, rest, w, -, -, rfl, -⟩ | ⟨f, rest, w, -, -, rfl, -⟩ | ⟨hkeeps, -⟩ :=
    step_writers hp hstep
  · exact hi.keyMaterial hs ht
  · exact ⟨rfl, rfl, rfl, rfl, rfl⟩
  · exact ⟨rfl, rfl, rfl, rfl, rfl⟩
  · exact ⟨hkeeps.seed, hkeeps.keyLen, hkeeps.saltTx, hkeeps.saltRx, hkeeps.keyRaw⟩

/-- Settles O58: PB and SKT are written by nothing else, the parameters by nothing at all. -/
theorem parametersAndBuffersHaveOneWriter : Obligations.ParametersAndBuffersHaveOneWriter := by
  intro s t hp hstep
  obtain ⟨v, rest, hm, hi⟩ | ⟨f, rest, w, -, -, rfl, -⟩ | ⟨f, rest, w, -, -, rfl, -⟩ | ⟨hkeeps, hpb⟩ :=
    step_writers hp hstep
  · obtain ⟨hcfg, hpb, hskt⟩ := hi.buffers
    exact ⟨hcfg, hpb.imp_right fun hc => .inr ⟨rest, v, hm, hc⟩, hskt.imp_right fun hc => ⟨rest, v, hm, hc⟩⟩
  · exact ⟨rfl, .inl rfl, .inl rfl⟩
  · exact ⟨rfl, .inl rfl, .inl rfl⟩
  · exact ⟨hkeeps.cfg, hpb.imp_right .inl, .inl hkeeps.skt⟩

end Sys2Proof.Machine
end

section
/-! The obligations of 10_state: the register file as the host sees it (R22 to R37), the bits of FLAGS (R26), and the
environment's moves on RXS (R50). -/

namespace Sys2Proof.Machine

variable {s : State}

/-! ### The register file as a table (10_state R22) -/

/-- What the host reads in registers 0 to 26, as numbers. -/
def State.registers (s : State) : List Nat :=
  [0, s.issueStatus.code.toNat, s.sess.code.toNat, s.flags.toNat, s.ord.toNat, s.lcg.toNat, s.seed.toNat] ++
  [s.keyLen.toNat, s.argSeed.toNat, s.pbLen.toNat, s.txOpc.toNat, s.txbLen.toNat, s.argOrdTx.toNat] ++
  [s.txStatus.code.toNat, s.txClass.code.toNat, s.txA.toNat, s.txB.toNat, s.argOrdRx.toNat] ++
  [s.rxStatus.code.toNat, s.rxbLen.toNat, s.rxOpc.toNat, s.rxClass.code.toNat, s.rxOrd.toNat, s.rxA.toNat] ++
  [s.rxB.toNat, s.rxOff.toNat, s.rxBlen.toNat]

theorem State.readReg_eq (s : State) (no : Byte) : s.readReg no = BitVec.ofNat 32 (s.registers.getD no.toNat 0) := by
  unfold State.readReg
  generalize no.toNat = n
  obtain hn | hn := Nat.lt_or_ge n 27
  · interval_cases n <;> simp [State.registers]
  · obtain ⟨k, rfl⟩ := Nat.exists_eq_add_of_le' hn
    rfl

theorem operandRegisters_lt {no : Byte} (h : no ∈ operandRegisters) : no.toNat < 27 :=
  (by decide : ∀ k ∈ operandRegisters, k.toNat < 27) no h

theorem State.writeReg_of_not_mem {no : Byte} (v : Word) (h : no ∉ operandRegisters) : s.writeReg no v = s := by
  have hne (k : Byte) (hk : k ∈ operandRegisters) : no.toNat ≠ k.toNat := fun e =>
    h (BitVec.eq_of_toNat_eq e ▸ hk)
  unfold State.writeReg
  split
  case h_1 e => exact absurd e (hne 8#8 (by decide))
  case h_2 e => exact absurd e (hne 9#8 (by decide))
  case h_3 e => exact absurd e (hne 10#8 (by decide))
  case h_4 e => exact absurd e (hne 11#8 (by decide))
  case h_5 e => exact absurd e (hne 12#8 (by decide))
  case h_6 e => exact absurd e (hne 17#8 (by decide))
  case h_7 => rfl

/-- A write of an operand register changes its entry and no other (10_state R23; 00_scope R17). -/
theorem State.registers_writeReg {no : Byte} (v : Word) (h : no ∈ operandRegisters) :
    (s.writeReg no v).registers = s.registers.set no.toNat (v.toNat % 2 ^ operandWidth no) := by
  simp only [operandRegisters, List.mem_cons, List.not_mem_nil, or_false] at h
  obtain rfl | rfl | rfl | rfl | rfl | rfl := h <;>
    simp [State.writeReg, State.registers, operandWidth, State.flags, State.txBusy, State.rxBusy]

theorem State.readReg_writeReg (no m : Byte) (v : Word) :
    (s.writeReg no v).readReg m =
      if no ∈ operandRegisters ∧ m = no then BitVec.ofNat 32 (v.toNat % 2 ^ operandWidth no) else s.readReg m := by
  by_cases hop : no ∈ operandRegisters
  · have hlen : no.toNat < s.registers.length := operandRegisters_lt hop
    rw [State.readReg_eq, State.registers_writeReg v hop, State.readReg_eq]
    by_cases hm : m = no
    · subst hm
      simp [hop, hlen]
    · have hm' : no.toNat ≠ m.toNat := fun e => hm (BitVec.eq_of_toNat_eq e.symm)
      simp [hm, hm', List.getD_eq_getElem?_getD, List.getElem?_set_ne]
  · rw [State.writeReg_of_not_mem v hop, if_neg (hop ·.1)]

/-- The rest of the machine does not see a write of a register. -/
theorem State.writeReg_frame (s : State) (no : Byte) (v : Word) :
    (∀ sp, (s.writeReg no v).ram sp = s.ram sp) ∧ (s.writeReg no v).rxs = s.rxs ∧ (s.writeReg no v).txs = s.txs ∧
      (s.writeReg no v).txFlight = s.txFlight ∧ (s.writeReg no v).rxFlight = s.rxFlight := by
  unfold State.writeReg
  split <;> exact ⟨fun sp => by cases sp <;> rfl, rfl, rfl, rfl, rfl⟩

/-- The bits of FLAGS from the lowest on (10_state R26). -/
theorem State.flags_getLsbD (s : State) (k : Nat) :
    s.flags.getLsbD k = [s.cipherValid, s.sktValid, s.txFlight.isSome, s.rxFlight.isSome].getD k false := by
  simp only [State.flags, State.txBusy, State.rxBusy, BitVec.getLsbD_append, BitVec.getLsbD_ofBool, BitVec.getLsbD_zero]
  match k with
  | 0 | 1 | 2 | 3 => simp
  | k + 4 => simp

theorem step_writeReg {no : Byte} {v : Word} {rest : List Move} (hm : s.moves = .writeReg no v :: rest)
    (h0 : no ≠ 0#8) : step s = .next ((s.advance rest).writeReg no v) := by
  rw [step_cons hm, runMove, if_neg h0]

theorem step_readReg {no : Byte} {rest : List Move} (hm : s.moves = .readReg no :: rest) :
    step s = .next { s.advance rest with hostPort := .value (s.readReg no) } :=
  step_cons hm

/-! ### The obligations -/

/-- Settles O3: the table of registers changes at the written operand register only. -/
theorem hostWritesOnlyOperandRegisters : Obligations.HostWritesOnlyOperandRegisters := by
  intro s no v rest hm h0
  obtain ⟨hram, hrxs, htxs, htx, hrx⟩ := (s.advance rest).writeReg_frame no v
  refine ⟨_, step_writeReg hm h0, fun m => State.readReg_writeReg no m v, fun sp => ?_, hrxs, htxs, htx, hrx,
    State.writeReg_of_not_mem v⟩
  rw [hram]
  cases sp <;> rfl

/-- Settles O4: a read returns the entry of the table, and no operand register has a number from 27 on. -/
theorem registerReadsFollowTheTable : Obligations.RegisterReadsFollowTheTable := by
  refine ⟨?_, fun s no v rest hno hm => ?_, rfl, rfl, rfl⟩
  · intro s no rest hm table
    rw [step_readReg hm, State.readReg_eq]
    rfl
  · have hop : no ∉ operandRegisters := fun hop => Nat.not_lt.2 hno (operandRegisters_lt hop)
    have h0 : no ≠ 0#8 := by
      rintro rfl
      exact absurd hno (by decide)
    rw [step_writeReg hm h0, State.writeReg_of_not_mem v hop]

/-- Settles O5: bits 0 to 3 are the four appended ones, and the four zero bits stand above them. -/
theorem flagsRegisterBits : Obligations.FlagsRegisterBits := by
  intro s
  simp only [State.flags_getLsbD]
  refine ⟨rfl, rfl, rfl, rfl, fun k hk => ?_⟩
  obtain ⟨j, rfl⟩ := Nat.exists_eq_add_of_le' hk
  rfl

/-- Settles O60: RXS is bound, so ENV's move is the update of the stream. -/
theorem environmentFeedsAndClosesRxs : Obligations.EnvironmentFeedsAndClosesRxs := by
  intro s q rest bs hq
  have hq' : (s.advance rest).rxs = some q := hq
  refine ⟨fun hm hopen => ?_, fun hm => ?_⟩
  · simp only [step_cons hm, runMove, State.feed, hq', hopen, Bool.false_eq_true, if_false]
  · simp only [step_cons hm, runMove, State.close, hq']

end Sys2Proof.Machine
end

section
/-! The obligations of 20_memory on host accesses (R66, R67): what the host writes it reads back, what each space gives
it, and the accesses that are ignored or stop the machine. -/

namespace Sys2Proof.Machine

variable {s t : State} {sp : Space} {i n : Nat} {bs : List Byte} {rest : List Move}

/-! ### One access (20_memory R66, R67) -/

theorem step_memWrite (hm : s.moves = .memWrite sp i bs :: rest) : step s = (s.advance rest).hostWrite sp i bs :=
  step_cons hm

theorem step_memRead (hm : s.moves = .memRead sp i n :: rest) : step s = (s.advance rest).hostRead sp i n :=
  step_cons hm

theorem State.hostWrite_beyond (h : sp.size < i + bs.length) : s.hostWrite sp i bs = .fault (.noSuchIndex sp i) :=
  if_pos h

theorem State.hostRead_beyond (h : sp.size < i + n) : s.hostRead sp i n = .fault (.noSuchIndex sp i) :=
  if_pos h

theorem State.hostWrite_busy (h : i + bs.length ≤ sp.size) (hb : s.bufferBusy sp = true) :
    s.hostWrite sp i bs = .refused (.bufferBusy sp) := by
  simp only [State.hostWrite, if_neg (Nat.not_lt.2 h), if_pos hb]

theorem State.hostRead_busy (h : i + n ≤ sp.size) (hb : s.bufferBusy sp = true) :
    s.hostRead sp i n = .refused (.bufferBusy sp) := by
  rw [State.hostRead, if_neg (Nat.not_lt.2 h), if_pos hb]

/-- Only the two buffers are ever busy, each with its own direction. -/
theorem State.bufferBusy_eq_false (htx : sp = .txb → s.txFlight = none) (hrx : sp = .rxb → s.rxFlight = none) :
    s.bufferBusy sp = false := by
  cases sp
  case txb => exact txBusy_eq_false.2 (htx rfl)
  case rxb => exact rxBusy_eq_false.2 (hrx rfl)
  all_goals rfl

/-- A space that is neither PB nor TXB ignores the host's write. -/
theorem State.hostWrite_readOnly (h : i + bs.length ≤ sp.size) (hpb : sp ≠ .pb) (htxb : sp ≠ .txb)
    (hrx : sp = .rxb → s.rxFlight = none) : s.hostWrite sp i bs = .next s := by
  have hb : s.bufferBusy sp = false := State.bufferBusy_eq_false (fun e => absurd e htxb) hrx
  simp only [State.hostWrite, if_neg (Nat.not_lt.2 h), hb, Bool.false_eq_true, if_false]
  cases sp
  case pb => exact absurd rfl hpb
  case txb => exact absurd rfl htxb
  all_goals rfl

/-- PB, and TXB while TX is idle, take the host's bytes; no other space changes. -/
theorem State.hostWrite_stores (h : i + bs.length ≤ sp.size) (hsp : sp = .pb ∨ (sp = .txb ∧ s.txFlight = none)) :
    ∃ t, s.hostWrite sp i bs = .next t ∧ t.ram sp = (s.ram sp).store i bs ∧
      (∀ other, other ≠ sp → t.ram other = s.ram other) ∧ t.txFlight = s.txFlight ∧ t.moves = s.moves := by
  simp only [State.hostWrite, if_neg (Nat.not_lt.2 h)]
  obtain rfl | ⟨rfl, htx⟩ := hsp
  · refine ⟨_, rfl, rfl, fun other hne => ?_, rfl, rfl⟩
    cases other
    case pb => exact absurd rfl hne
    all_goals rfl
  · rw [if_neg (Bool.eq_false_iff.1 (txBusy_eq_false.2 htx) : ¬ s.bufferBusy .txb = true)]
    refine ⟨_, rfl, rfl, fun other hne => ?_, rfl, rfl⟩
    cases other
    case txb => exact absurd rfl hne
    all_goals rfl

/-- Where every location read holds a value for the host, it reads what the engine would. -/
theorem State.hostRead_held (h : i + n ≤ sp.size) (hb : s.bufferBusy sp = false)
    (hheld : ∀ k < n, s.holdsValue sp (i + k) = true) :
    s.hostRead sp i n = .next { s with hostPort := .bytes (s.memRead sp i n) } := by
  have hbytes : ((List.range n).map fun k => s.hostByte sp (i + k)) = s.memRead sp i n :=
    List.map_congr_left fun k hk => if_pos (hheld k (List.mem_range.1 hk))
  rw [State.hostRead, if_neg (Nat.not_lt.2 h), if_neg (Bool.eq_false_iff.1 hb), hbytes]

/-- A read of locations that all hold a byte. -/
theorem State.memRead_of_byte? (h : ∀ k (hk : k < bs.length), (s.ram sp).byte? (i + k) = some bs[k]) :
    s.memRead sp i bs.length = bs :=
  List.ext_getElem (State.memRead_length ..) fun k _ hk => by
    rw [State.memRead_getElem, State.byteAt_of_byte? (h k hk)]

/-- When a location holds a value for the host (10_state R49). -/
theorem State.holdsValue_of (hsalt : sp = .saltTx ∨ sp = .saltRx → s.cipherValid = true)
    (hkey : sp = .keyRaw → s.cipherValid = true ∧ i < s.keyLen.toNat) (hskt : sp = .skt → s.sktValid = true)
    (hrxb : sp = .rxb → i < s.rxbLen.toNat) : s.holdsValue sp i = true := by
  cases sp
  case saltTx => exact hsalt (.inl rfl)
  case saltRx => exact hsalt (.inr rfl)
  case keyRaw =>
    obtain ⟨hcv, hi⟩ := hkey rfl
    exact Bool.and_eq_true_iff.2 ⟨hcv, decide_eq_true hi⟩
  case skt => exact hskt rfl
  case rxb => exact decide_eq_true (hrxb rfl)
  all_goals rfl

/-- The class of an opcode in a ROM (10_state R47). -/
theorem rom_byte? (v : Vector Cls 256) (opc : Byte) :
    Memory.byte? (cellsAt 0 (v.toList.map Cls.code)) opc.toNat = some (v[opc.toNat]'opc.isLt).code := by
  have hlt : opc.toNat < 256 := opc.isLt
  rw [byte?_cellsAt, if_pos (Nat.zero_le _), Nat.sub_zero]
  simp [hlt]

/-- A step that reads locations which hold the given bytes (10_state R49; 20_memory R66). -/
theorem step_memRead_held (hm : s.moves = .memRead sp i bs.length :: rest) (hsize : i + bs.length ≤ sp.size)
    (hbytes : ∀ k (hk : k < bs.length), (s.ram sp).byte? (i + k) = some bs[k])
    (hbusy : s.bufferBusy sp = false) (hheld : ∀ k < bs.length, s.holdsValue sp (i + k) = true) :
    step s = .next { s.advance rest with hostPort := .bytes bs } := by
  have hram : (s.advance rest).ram sp = s.ram sp := by cases sp <;> rfl
  have hbusy' : (s.advance rest).bufferBusy sp = false := by rw [← hbusy]; cases sp <;> rfl
  have hheld' (k : Nat) (hk : k < bs.length) : (s.advance rest).holdsValue sp (i + k) = true := by
    rw [← hheld k hk]
    cases sp <;> rfl
  rw [step_memRead hm, State.hostRead_held hsize hbusy' hheld', State.memRead_of_byte? (by rwa [hram])]

/-- A read of one entry of a ROM. -/
theorem step_readRom {c : Cls} (opc : Byte) (hsp : sp = .encTx ∨ sp = .encRx)
    (hm : s.moves = .memRead sp opc.toNat 1 :: rest) (hc : (s.ram sp).byte? opc.toNat = some c.code) :
    step s = .next { s.advance rest with hostPort := .bytes [c.code] } := by
  have hsize : opc.toNat + [c.code].length ≤ sp.size := by
    have hlt : opc.toNat < 256 := opc.isLt
    obtain rfl | rfl := hsp <;> exact hlt
  refine step_memRead_held hm hsize (fun k hk => ?_) ?_ fun k _ => ?_
  · obtain rfl : k = 0 := Nat.lt_one_iff.1 hk
    exact hc
  · obtain rfl | rfl := hsp <;> rfl
  · obtain rfl | rfl := hsp <;> rfl

/-! ### The obligations -/

/-- Settles O36: the write is a store to the one space, and the read finds the stored bytes. -/
theorem hostWriteThenReadReturnsTheBytes : Obligations.HostWriteThenReadReturnsTheBytes := by
  intro s sp i bs rest hm hsize hsp
  have hadvance (other : Space) : (s.advance (.memRead sp i bs.length :: rest)).ram other = s.ram other := by
    cases other <;> rfl
  obtain ⟨t, ht, hram, hother, htx, hmoves⟩ :=
    State.hostWrite_stores (s := s.advance (.memRead sp i bs.length :: rest)) (bs := bs) hsize hsp
  have hbytes (k : Nat) (hk : k < bs.length) : (t.ram sp).byte? (i + k) = some bs[k] := by
    rw [hram, Memory.store_held _ i bs (i + k) (Nat.le_add_right i k) (by omega)]
    simp only [Nat.add_sub_cancel_left]
  have hread : step t = .next { t.advance rest with hostPort := .bytes bs } := by
    refine step_memRead_held hmoves hsize hbytes ?_ fun k _ => ?_
    · obtain rfl | ⟨rfl, hidle⟩ := hsp
      · rfl
      · exact txBusy_eq_false.2 (htx.trans hidle)
    · obtain rfl | ⟨rfl, -⟩ := hsp <;> rfl
  refine ⟨t, _, (step_memWrite hm).trans ht, hread, rfl, fun sp' j hj => ?_⟩
  have hlast : ({ t.advance rest with hostPort := .bytes bs } : State).ram sp' = t.ram sp' := by cases sp' <;> rfl
  rw [hlast]
  by_cases hsp' : sp' = sp
  · subst hsp'
    rw [hram, Memory.byte?_store, if_neg (by have := hj rfl; omega), hadvance]
  · rw [hother sp' hsp', hadvance]

/-- Settles O37: the size is tested first, then the busy buffer, and then the kind of the space decides. -/
theorem hostAccessRules : Obligations.HostAccessRules := by
  intro s sp i n bs rest reads
  have hbusyTx (h : s.txFlight ≠ none) : (s.advance rest).bufferBusy .txb = true :=
    txBusy_eq_true.2 h
  have hbusyRx (h : s.rxFlight ≠ none) : (s.advance rest).bufferBusy .rxb = true :=
    rxBusy_eq_true.2 h
  refine ⟨?holds, ?romTx, ?romRx, ?readOnly, ?busyWriteTx, ?busyReadTx, ?busyReadRx, ?beyondWrite, ?beyondRead⟩
  case holds =>
    intro hm hsize hbytes hsalt hkey hskt htx hrx
    refine step_memRead_held hm hsize hbytes (State.bufferBusy_eq_false htx fun e => (hrx e).1) fun k hk => ?_
    refine State.holdsValue_of hsalt (fun e => ⟨(hkey e).1, ?_⟩) hskt fun e => ?_
    · have := (hkey e).2
      omega
    · have := (hrx e).2
      omega
  case romTx => exact fun opc hm => step_readRom opc (.inl rfl) hm (rom_byte? s.cfg.encTx opc)
  case romRx => exact fun opc hm => step_readRom opc (.inr rfl) hm (rom_byte? s.cfg.encRx opc)
  case readOnly =>
    intro hm hsize hpb htxb hrx
    rw [step_memWrite hm, State.hostWrite_readOnly (s := s.advance rest) hsize hpb htxb hrx]
  case busyWriteTx => exact fun hm hsize h => (step_memWrite hm).trans (State.hostWrite_busy hsize (hbusyTx h))
  case busyReadTx => exact fun hm hsize h => (step_memRead hm).trans (State.hostRead_busy hsize (hbusyTx h))
  case busyReadRx => exact fun hm hsize h => (step_memRead hm).trans (State.hostRead_busy hsize (hbusyRx h))
  case beyondWrite => exact fun hm h => (step_memWrite hm).trans (State.hostWrite_beyond h)
  case beyondRead => exact fun hm h => (step_memRead hm).trans (State.hostRead_beyond h)

end Sys2Proof.Machine
end

section
/-! The obligations of 47_session_system and 60_exceptions on one command and one step: RESET, SESS.OPEN and SESS.CLOSE
(R301, R302, R306), which instruction a step runs (R300, R360), and where a step stops. -/

namespace Sys2Proof.Machine

variable {s : State}

/-! ### SESS.CLOSE without a session (47_session_system R306) -/

/-- Without a session there is nothing left to clear: only ISSUE_STATUS is written. -/
theorem State.Inv.closeSession_none (h : s.Inv) (hs : s.sess = .none) :
    s.closeSession = { s with issueStatus := .ok } := by
  obtain ⟨-, -, hrxs, htxs, hord, hlcg, hcv, hsv, hclear⟩ := h.noSession hs
  obtain ⟨hkl, hseed⟩ := h.noKey hcv
  obtain ⟨htst, htcls, hta, htb, hrst, hlen, hopc, hrcls, hrord, hra, hrb, hoff, hblen⟩ := hclear
  simp only [State.closeSession, State.unbind, State.clearSession, hs, hrxs, htxs, hord, hlcg, hcv, hsv, hkl, hseed,
    htst, htcls, hta, htb, hrst, hlen, hopc, hrcls, hrord, hra, hrb, hoff, hblen, Option.toList_none, List.append_nil]

/-! ### Every instruction answers (60_exceptions R330) -/

theorem exec_answers (i : Instr) (s : State) : ∃ t, exec i s = .next t := by
  cases i with
  | frame d p => cases d <;> exact ⟨_, rfl⟩
  | pPlain d opc body => cases d <;> exact ⟨_, rfl⟩
  | _ => exact ⟨_, rfl⟩

theorem complete_answers (i : Instr) (s : State) : ∃ t, complete i s = .next t := by
  obtain ⟨t, ht⟩ := exec_answers i { s with phase := .completion }
  exact ⟨_, complete_next ht⟩

theorem issueCommand_answers (code : Byte) (s : State) : ∃ t, issueCommand code s = .next t := by
  unfold issueCommand
  split
  · exact exec_answers _ s
  · exact ⟨_, rfl⟩

/-! ### Moves that are allowed (20_memory R66, R67; 10_state R50) -/

theorem State.hostWrite_answers_iff (sp : Space) (i : Nat) (bs : List Byte) :
    (∃ t, s.hostWrite sp i bs = .next t) ↔ s.allows (.memWrite sp i bs) = true := by
  simp only [State.allows, Bool.and_eq_true, decide_eq_true_eq, Bool.not_eq_true']
  by_cases hsize : i + bs.length ≤ sp.size
  · cases hbusy : s.bufferBusy sp
    · simp only [hsize, true_and, iff_true]
      simp only [State.hostWrite, if_neg (Nat.not_lt.2 hsize), hbusy, Bool.false_eq_true, if_false]
      cases sp <;> exact ⟨_, rfl⟩
    · simp [State.hostWrite_busy hsize hbusy]
  · simp [State.hostWrite_beyond (s := s) (Nat.lt_of_not_le hsize), hsize]

theorem State.hostRead_answers_iff (sp : Space) (i n : Nat) :
    (∃ t, s.hostRead sp i n = .next t) ↔ s.allows (.memRead sp i n) = true := by
  simp only [State.allows, Bool.and_eq_true, decide_eq_true_eq, Bool.not_eq_true']
  by_cases hsize : i + n ≤ sp.size
  · cases hbusy : s.bufferBusy sp
    · simp [State.hostRead, Nat.not_lt.2 hsize, hsize, hbusy]
    · simp [State.hostRead_busy hsize hbusy]
  · simp [State.hostRead_beyond (s := s) (Nat.lt_of_not_le hsize), hsize]

theorem State.feed_answers_iff (bs : List Byte) : (∃ t, s.feed bs = .next t) ↔ s.allows (.feed bs) = true := by
  cases hq : s.rxs with
  | none => simp [State.feed, State.allows, hq]
  | some q => cases hc : q.closed <;> simp [State.feed, State.allows, hq, hc]

theorem State.close_answers_iff : (∃ t, s.close = .next t) ↔ s.allows .close = true := by
  cases hq : s.rxs <;> simp [State.close, State.allows, hq]

theorem runMove_answers_iff (m : Move) (s : State) : (∃ t, runMove m s = .next t) ↔ s.allows m = true := by
  cases m with
  | writeReg no v =>
    refine iff_of_true ?_ rfl
    by_cases h0 : no = 0#8
    · simp only [runMove, if_pos h0]
      exact issueCommand_answers _ s
    · exact ⟨_, if_neg h0⟩
  | readReg no => exact iff_of_true ⟨_, rfl⟩ rfl
  | memWrite sp i bs => exact State.hostWrite_answers_iff sp i bs
  | memRead sp i n => exact State.hostRead_answers_iff sp i n
  | tx =>
    refine iff_of_true ?_ rfl
    unfold runMove
    cases s.txFlight with
    | none => exact ⟨_, rfl⟩
    | some f => exact complete_answers _ s
  | rx =>
    refine iff_of_true ?_ rfl
    unfold runMove
    cases s.rxFlight with
    | none => exact ⟨_, rfl⟩
    | some f => exact complete_answers _ s
  | feed bs => exact State.feed_answers_iff bs
  | close => exact State.close_answers_iff

/-- The schedule is no part of what a move needs. -/
theorem State.allows_advance (rest : List Move) (m : Move) : (s.advance rest).allows m = s.allows m := by
  have hbusy (sp : Space) : (s.advance rest).bufferBusy sp = s.bufferBusy sp := by cases sp <;> rfl
  cases m
  case memWrite | memRead => simp only [State.allows, hbusy]
  all_goals rfl

/-! ### The obligations -/

/-- Settles O2: `State.resetMachine` is the power-on state with the kept fields put back. -/
theorem resetCommandCancelsEverything : Obligations.ResetCommandCancelsEverything := by
  intro s
  rw [exec_reset, State.resetMachine, State.unbind]

/-- Settles O17: idle directions let the command run, and it clears the session before it binds fresh streams. -/
theorem sessOpenStartsAFreshSession : Obligations.SessOpenStartsAFreshSession := by
  intro s htx hrx
  rw [exec_sessOpen, State.ifIdle_idle _ htx hrx]
  rfl

/-- Settles O20: as for SESS.OPEN, and without a session the invariant says that all it clears is clear. -/
theorem sessCloseEndsTheSession : Obligations.SessCloseEndsTheSession := by
  intro s htx hrx
  rw [exec_sessClose, State.ifIdle_idle _ htx hrx]
  exact ⟨rfl, fun h hs => by rw [h.closeSession_none hs]⟩

/-- Settles O11: the write is of CMD, and the parameters that the decoder takes do not change with the schedule. -/
theorem stepRunsDecodedCommand : Obligations.StepRunsDecodedCommand := by
  intro s v rest i hm hd
  have hd' : decode (s.advance rest).cfg.nfrag .cmd [v.setWidth 8] = .ok (i, []) := hd
  simp only [step_writeCmd hm, issueCommand, hd']

/-- Settles O12: the unit's move is a completion where a command is in flight, and passes where none is. -/
theorem stepRunsCommandInFlight : Obligations.StepRunsCommandInFlight := by
  intro s t rest
  refine ⟨fun f hm hf he => ?_, fun f hm hf he => ?_, fun hm hf => ?_, fun hm hf => ?_⟩
  · simp only [step_cons hm, runMove, State.advance_txFlight, hf, complete_next he]
  · simp only [step_cons hm, runMove, State.advance_rxFlight, hf, complete_next he]
  · simp only [step_cons hm, runMove, State.advance_txFlight, hf]
  · simp only [step_cons hm, runMove, State.advance_rxFlight, hf]

/-- Settles O59: no instruction stops the machine, so a step stops only where a host or environment move does. -/
theorem stepsStopOnlyOnDisallowedMoves : Obligations.StepsStopOnlyOnDisallowedMoves := by
  refine ⟨exec_answers, fun s => step_nil, fun s m rest hm => ?_⟩
  rw [step_cons hm, runMove_answers_iff, State.allows_advance]

end Sys2Proof.Machine
end

section
/-! The obligations of 40_frame_codec and 46_send_recv on the two commands that read frames and on the wire formats that
the commands run: held and failed reads (R132 to R134), the loop-back of a frame (R138), and each wire format as an
instruction (30_encoding R90 to R106). -/

namespace Sys2Proof.Machine

variable {s : State} {q : RxStream}

/-! ### A frame that is not whole (40_frame_codec R132 to R134) -/

/-- Fewer bytes than a header, or than the header asks for. -/
def Incomplete (bs : List Byte) : Prop :=
  bs.length < 3 ∨ ∃ hi lo rest, bs = magic :: hi :: lo :: rest ∧ rest.length < frameLength hi lo

/-- What is made of it depends on whether more can come. -/
theorem RxStream.frameRead_incomplete (h : Incomplete q.unread) :
    q.frameRead =
      if q.closed then
        if q.unread = [] then .error .transportClosed 0 else .error .truncatedFrame q.unread.length
      else .hold := by
  obtain hshort | ⟨hi, lo, rest, hu, hl⟩ := h
  · simp only [RxStream.frameRead, decodeFrame_headerShort _ hshort]
  · simp only [RxStream.frameRead, hu, decodeFrame_payloadShort hi lo rest hl]

theorem State.frameReadThen_hold (hq : s.rxs = some q) (h : q.frameRead = .hold) (k : State → List Byte → State) :
    s.frameReadThen k = s := by
  simp only [State.frameReadThen, hq, Option.map_some, h]

theorem State.frameReadThen_error {e : Status} {n : Nat} (hq : s.rxs = some q) (h : q.frameRead = .error e n)
    (k : State → List Byte → State) :
    s.frameReadThen k = { s with rxs := some (q.take n), rxStatus := e, rxFlight := none, sess := .dead } := by
  have hfatal := (RxStream.frameRead_eq_error h).1
  simp only [State.frameReadThen, hq, Option.map_some, h, State.rxTake, State.raise_rx_fatal e hfatal]

/-- FRAME.RD and RECV alike, whatever they would do with a payload. -/
theorem exec_reads_error {f : RxFlight} {e : Status} {n : Nat} (hp : s.phase = .completion) (hf : s.rxFlight = some f)
    (hq : s.rxs = some q) (h : q.frameRead = .error e n) :
    exec .frameRd s = .next { s with rxs := some (q.take n), rxStatus := e, rxFlight := none, sess := .dead } ∧
    exec .recv s = .next { s with rxs := some (q.take n), rxStatus := e, rxFlight := none, sess := .dead } := by
  rw [exec_frameRd_completion hp hf, exec_recv_completion hp hf]
  exact ⟨by rw [State.frameReadThen_error hq h], by rw [State.frameReadThen_error hq h]⟩

/-! ### The inbound wire formats (30_encoding R90, R94, R106) -/

theorem State.takeFrame_some (hq : s.rxs = some q) (p : List Byte) :
    s.takeFrame p = { s with
      rxs := some { q with unread := q.unread.drop (3 + p.length), pos := q.pos + (3 + p.length) } } := by
  rw [State.takeFrame, State.rxTake, hq, Option.map_some, RxStream.take]

theorem exec_frame_rx (p : List Byte) (s : State) : exec (.frame .rx p) s = .next ((s.takeFrame p).deliver p) := rfl

theorem exec_pPlain_rx (opc : Byte) (body : List Byte) (s : State) :
    exec (.pPlain .rx opc body) s = .next ((s.takeFrame (opc :: body)).deliverClassified (opc :: body)) := rfl

theorem exec_pEncRx (opc ord : Byte) (c : List Byte) (t0 t1 t2 : Byte) (s : State) :
    exec (.pEncRx opc ord c t0 t1 t2) s =
      .next ((s.takeFrame (opc :: ord :: (c ++ [t0, t1, t2]))).deliverClassified
        (opc :: ord :: (c ++ [t0, t1, t2]))) := rfl

theorem State.deliver_frameRd {f : RxFlight} (hf : s.rxFlight = some f) (hc : f.cmd = .frameRd) (p : List Byte) :
    s.deliver p = s.deliverRaw p := by
  simp only [State.deliver, hf, Option.map_some, hc]

theorem State.deliver_recv {f : RxFlight} (hf : s.rxFlight = some f) (hc : f.cmd = .recv) (p : List Byte) :
    s.deliver p = s.deliverClassified p := by
  simp only [State.deliver, hf, Option.map_some, hc]

theorem State.frameReadThen_payload {p rest : List Byte} (hq : s.rxs = some q)
    (hd : decodeFrame q.unread = .ok (p, rest)) (k : State → List Byte → State) :
    s.frameReadThen k = k (s.takeFrame p) p := by
  simp only [State.frameReadThen, hq, Option.map_some, RxStream.frameRead_payload hd]

/-- An inbound payload is one of the two formats that CFE receives, and both are RECV of its bytes. -/
theorem exec_inbound_payload {nfrag : Nat} {cls : Cls} {p : List Byte} {i : Instr}
    (h : decodePayload nfrag .rx cls p = .ok i) (s : State) :
    exec i s = .next ((s.takeFrame p).deliverClassified p) := by
  by_cases hcls : cls = .none
  · subst hcls
    obtain ⟨opc, body, rfl, rfl⟩ := decodePayload_none_ok h
    exact exec_pPlain_rx opc body s
  · obtain ⟨opc, ord, mid, t0, t1, t2, rfl, ⟨-, rfl⟩ | ⟨htx, -⟩ | ⟨htx, -⟩⟩ := decodePayload_encrypted_ok hcls h
    · exact exec_pEncRx opc ord mid t0 t1 t2 s
    · cases htx
    · cases htx

theorem decode_frame_inv {nfrag : Nat} {d : Dir} {bs p rest : List Byte}
    (h : decode nfrag (.frame d) bs = .ok (.frame d p, rest)) : decodeFrame bs = .ok (p, rest) := by
  cases hd : decodeFrame bs with
  | error e => simp [decode, hd, Except.map] at h
  | ok found => simpa [decode, hd, Except.map, Prod.ext_iff] using h

theorem decode_payload_inv {nfrag : Nat} {d : Dir} {cls : Cls} {p : List Byte} {i : Instr}
    (h : decode nfrag (.payload d cls) p = .ok (i, [])) : decodePayload nfrag d cls p = .ok i := by
  cases hd : decodePayload nfrag d cls p with
  | error e => simp [decode, hd, Except.map] at h
  | ok j => simpa [decode, hd, Except.map] using h

/-! ### The outbound wire formats (30_encoding R90, R94, R103, R104) -/

theorem exec_frame_tx (p : List Byte) (s : State) : exec (.frame .tx p) s = .next (s.frameWrite p) := rfl

theorem exec_pPlain_tx (opc : Byte) (body : List Byte) (s : State) :
    exec (.pPlain .tx opc body) s = .next ({ s with txClass := .none }.frameWrite (opc :: body)) := rfl

theorem exec_pNormTx (opc ord : Byte) (c : List Byte) (t0 t1 t2 : Byte) (s : State) :
    let ab := trailerUnpack s.cfg.trailerOrder t0 t1 t2
    exec (.pNormTx opc ord c t0 t1 t2) s =
      .next (s.sendPacket .normal ord c ab.1 ab.2 (opc :: ord :: (c ++ [t0, t1, t2]))) := rfl

theorem exec_pMd5Tx (opc ord : Byte) (c frag : List Byte) (t0 t1 t2 : Byte) (s : State) :
    let ab := trailerUnpack s.cfg.trailerOrder t0 t1 t2
    exec (.pMd5Tx opc ord c frag t0 t1 t2) s =
      .next (s.sendPacket .md5 ord c ab.1 ab.2 (opc :: ord :: (c ++ frag ++ [t0, t1, t2]))) := rfl

theorem State.sendPacket_fits {cls : Cls} {ord : Byte} {c : List Byte} {a : Half} {b : Byte} {p : List Byte}
    (h : p.length ≤ maxPayload) : s.sendPacket cls ord c a b p = s.sendEncrypted cls ord c a b p :=
  if_neg (Nat.not_lt.2 h)

/-- A packet of known length that fits a frame (46_send_recv R272). -/
theorem State.sendPacket_appends {cls : Cls} {ord : Byte} {c : List Byte} {a : Half} {b : Byte} {p : List Byte}
    {n : Nat} (hn : p.length = n) (h : n ≤ maxPayload) :
    s.sendPacket cls ord c a b p = { s with
      txClass := cls, txb := s.txb.store 0 c, lcg := lcgNext s.lcg, txA := a, txB := b, ord := ord + 1#8
      txs := s.txs.map (· ++ magic :: BitVec.ofNat 8 (n / 256) :: BitVec.ofNat 8 (n % 256) :: p)
      txStatus := .ok, txFlight := none } := by
  rw [State.sendPacket_fits (hn.trans_le h), State.sendEncrypted, State.frameWrite_ok p (hn.trans_le h),
    frameBytes_of_length hn]

/-- The completion of SEND where nothing is raised, as the sending of a packet. -/
theorem exec_send_packet {f : TxFlight} {key : Key} (hp : s.phase = .completion) (hf : s.txFlight = some f)
    (hne : classify s.cfg .tx f.opc ≠ .none)
    (hkey : s.effectiveKey (classify s.cfg .tx f.opc) (outboundA (lcgNext s.lcg)) bTx = some key)
    (hn : s.overhead (classify s.cfg .tx f.opc) + f.len.toNat ≤ maxPayload) :
    let cls := classify s.cfg .tx f.opc
    let a := outboundA (lcgNext s.lcg)
    let c := crypt (s.memRead .txb 0 f.len.toNat) s.ord key (s.salt .tx)
    exec .send s = .next (s.sendPacket cls s.ord c a bTx (s.encryptedPayload cls f.opc s.ord c a bTx)) := by
  intro cls a c
  have hlen : (s.encryptedPayload cls f.opc s.ord c a bTx).length ≤ maxPayload := by
    rwa [State.encryptedPayload_length, crypt_length, State.memRead_length]
  rw [exec_send_completion hp hf, State.sendComplete_key hne hkey, if_neg (Nat.not_lt.2 hn),
    State.sendPacket_fits hlen]

/-! ### The obligations -/

/-- Settles O28: an incomplete frame on an open stream is a hold. -/
theorem readsHoldWithoutAWholeFrame : Obligations.ReadsHoldWithoutAWholeFrame := by
  intro s f q hp hf hq hopen hinc
  have hhold : q.frameRead = .hold := by
    rw [RxStream.frameRead_incomplete hinc, hopen]
    rfl
  rw [exec_frameRd_completion hp hf, exec_recv_completion hp hf]
  exact ⟨by rw [State.frameReadThen_hold hq hhold], by rw [State.frameReadThen_hold hq hhold]⟩

/-- Settles O29: the read finds an error before either command looks at a payload. -/
theorem readErrorsKillTheSession : Obligations.ReadErrorsKillTheSession := by
  intro s f q hp hf hq dies
  refine ⟨fun b hi lo rest hu hb => ?_, fun hc hu => ?_, fun hc hu hinc => ?_⟩
  · have hread : q.frameRead = .error .invalidFraming 3 :=
      RxStream.frameRead_badMagic (by rw [hu]; exact decodeFrame_badMagic b hi lo rest hb)
    have hdrop : q.unread.drop 3 = rest := by rw [hu]; rfl
    have hexec := exec_reads_error hp hf hq hread
    rwa [RxStream.take, hdrop] at hexec
  · have hread : q.frameRead = .error .transportClosed 0 := by
      rw [RxStream.frameRead_incomplete (.inl (by rw [hu]; decide)), if_pos hc, if_pos hu]
    have hexec := exec_reads_error hp hf hq hread
    rwa [RxStream.take, List.drop_zero, hu] at hexec
  · have hread : q.frameRead = .error .truncatedFrame q.unread.length := by
      rw [RxStream.frameRead_incomplete hinc, if_pos hc, if_neg hu]
    have hexec := exec_reads_error hp hf hq hread
    rwa [RxStream.take, List.drop_length] at hexec

/-- Settles O49: the bytes appended are one frame, which FRAME.RD reads whole and stores. -/
theorem frameWrThenFrameRdRoundTrips : Obligations.FrameWrThenFrameRdRoundTrips := by
  intro s r f g old hsp hsf htxs hn hrp hrf
  have hlen : (s.memRead .txb 0 f.len.toNat).length = f.len.toNat := State.memRead_length ..
  have hwr : exec .frameWr s = .next (s.frameWrite (s.memRead .txb 0 f.len.toNat)) :=
    exec_frameWr_completion hsp hsf
  rw [State.frameWrite_ok _ (hlen.trans_le hn), htxs] at hwr
  refine ⟨_, _, hwr, rfl, fun hrxs => ?_⟩
  have hdec := decodeFrame_frameBytes (s.memRead .txb 0 f.len.toNat) [] (hlen.trans_le hn)
  rw [List.append_nil] at hdec
  have hrd := exec_frameRd_completion hrp hrf
  rw [State.frameReadThen_payload hrxs hdec, State.deliverRaw_eq] at hrd
  refine ⟨_, hrd, rfl, ?_, State.memRead_of_store rfl hlen⟩
  rw [hlen]
  exact Nat.mod_eq_of_lt (by omega)

/-- Settles O14: the frame is taken and its payload delivered to the command in flight; RECV classifies it as its format
does. -/
theorem rxCommandsRunTheDecodedFormat : Obligations.RxCommandsRunTheDecodedFormat := by
  intro s f q p rest hp hf hq hdec
  have hframe := decode_frame_inv hdec
  have hrecv : exec .recv s = .next ((s.takeFrame p).deliverClassified p) := by
    rw [exec_recv_completion hp hf, State.frameReadThen_payload hq hframe]
  refine ⟨fun hc => ?_, fun hc => ?_, fun opc body i _ _ hi => ?_⟩
  · rw [exec_frameRd_completion hp hf, State.frameReadThen_payload hq hframe, exec_frame_rx,
      State.deliver_frameRd (s := s.takeFrame p) hf hc]
  · rw [hrecv, exec_frame_rx, State.deliver_recv (s := s.takeFrame p) hf hc]
  · rw [hrecv, exec_inbound_payload (decode_payload_inv hi)]

/-- Settles O13: SEND and the format run the same sending, since the trailer unpacks to the `a` and `b` it was packed
from. -/
theorem sendRunsTheSelectedFormat : Obligations.SendRunsTheSelectedFormat := by
  intro s f hp hf n body a t
  have hab : trailerUnpack s.cfg.trailerOrder t.1 t.2.1 t.2.2 = (a, bTx) := trailerUnpack_trailerPack ..
  refine ⟨fun hcls => ?_, fun key hkey hcls hcv hkl hn => ?_, fun key hkey hcls hcv hsv hn => ?_⟩
  · rw [exec_send_completion hp hf, State.sendComplete_none hcls, exec_pPlain_tx]
  · have heff : s.effectiveKey (classify s.cfg .tx f.opc) a bTx = some key := by
      rw [hcls]
      exact State.effectiveKey_eq_some.2 ⟨by decide, hcv, nofun, hkey⟩
    rw [exec_send_packet hp hf (by rw [hcls]; decide) heff (by rw [hcls]; exact hn), exec_pNormTx, hab, hcls]
    rfl
  · intro c
    have heff : s.effectiveKey (classify s.cfg .tx f.opc) a bTx = some key := by
      rw [hcls]
      exact State.effectiveKey_eq_some.2 ⟨by decide, hcv, fun _ => hsv, hkey⟩
    rw [exec_send_packet hp hf (by rw [hcls]; decide) heff (by rw [hcls]; exact hn), exec_pMd5Tx, hab, hcls]
    rfl

/-- Settles O34: each format is the sending of its payload, which fits a frame. -/
theorem outboundWireFormatsAppendTheirFrame : Obligations.OutboundWireFormatsAppendTheirFrame := by
  intro s opc ord t0 t1 t2 p body c frag ab framed
  refine ⟨fun hn => ?_, fun hn => ?_, fun hn => ?_, fun _ hn => ?_⟩
  · rw [exec_frame_tx, State.frameWrite_ok p hn, frameBytes_of_length rfl]
  · have hlen : (opc :: body).length = 1 + body.length := Nat.add_comm ..
    rw [exec_pPlain_tx, State.frameWrite_ok _ (by omega), frameBytes_of_length hlen]
  · rw [exec_pNormTx, State.sendPacket_appends (encryptedFields_length ..) (by simp only [maxPayload]; omega)]
  · have hlen : (opc :: ord :: (c ++ frag ++ [t0, t1, t2])).length = 5 + frag.length + c.length := by
      rw [encryptedFields_length, List.length_append]
      omega
    rw [exec_pMd5Tx, State.sendPacket_appends hlen hn]

/-- Settles O35: the frame leaves RXS, and the payload is delivered as FRAME.RD or RECV does. -/
theorem inboundWireFormatsAreTaken : Obligations.InboundWireFormatsAreTaken := by
  intro s q f opc ord t0 t1 t2 p body c rest cls hq hf ab taken
  refine ⟨fun hc _ _ => ?_, fun _ _ hcls => ?_, ?_⟩
  · rw [exec_frame_rx, State.deliver_frameRd (s := s.takeFrame p) hf hc, State.deliverRaw_eq, State.takeFrame_some hq]
  · have hlen : (opc :: body).length = 1 + body.length := Nat.add_comm ..
    rw [exec_pPlain_rx, State.deliverClassified_none (s := s.takeFrame _) hcls, State.takeFrame_some hq, hlen]
  · rintro key hkey plain - - rfl hne hcv - hskt
    have hlen := encryptedFields_length opc ord t0 t1 t2 c
    have heff : s.effectiveKey (classify s.cfg .rx opc) ab.1 ab.2 = some key :=
      State.effectiveKey_eq_some.2 ⟨hne, hcv, hskt, hkey⟩
    rw [exec_pEncRx, State.deliverClassified_key (s := s.takeFrame _) hne rfl heff, State.takeFrame_some hq, hlen]
    rfl

end Sys2Proof.Machine
end

section
/-! The obligations of 41_salt_table and 45_key_derivation on the datapath: the salt table's entries (R150, R151, R154)
and the generator (R241, R242). -/

namespace Sys2Proof.Machine

/-! ### Salt table entries (41_salt_table R150 to R154) -/

/-- `low8` is the integer modulo 256, whatever its sign (00_scope R16). -/
theorem low8_toNat (v : Int) : ((low8 v).toNat : Int) = v % 256 := by
  rw [low8, BitVec.toNat_ofInt]
  exact Int.toNat_of_nonneg (Int.emod_nonneg v (by decide))

theorem saltEntry_known (c : Config) {seed : Byte} (h : seed.toNat < 10) (i : Fin 256) :
    saltEntry c seed i = low8 ((c.salt[seed.toNat]'h)[i.val]) := by
  rw [saltEntry, replicate32_low, if_pos (show seed.toNat ≤ seedMax from Nat.le_of_lt_succ h), saltFormula,
    dif_pos ⟨h, i.isLt⟩]

theorem saltEntry_unknown (c : Config) {seed : Byte} (h : 10 ≤ seed.toNat) (i : Nat) : saltEntry c seed i = 0#8 := by
  rw [saltEntry, replicate32_low, if_neg (show ¬ seed.toNat ≤ seedMax by simp only [seedMax]; omega)]
  rfl

/-! ### The generator (45_key_derivation R240 to R242) -/

theorem lcgNext_toNat (x : Word) : (lcgNext x).toNat = (x.toNat * 0x343FD + 0x269EC3) % 2 ^ 32 := by
  rw [lcgNext, BitVec.toNat_add, BitVec.toNat_mul, Nat.mod_add_mod]
  rfl

/-- A step takes bits 30:0 from bits 30:0: carries go upward only. -/
theorem lcgNext_congr {x y : Word} (h : x.toNat % 2 ^ 31 = y.toNat % 2 ^ 31) :
    (lcgNext x).toNat % 2 ^ 31 = (lcgNext y).toNat % 2 ^ 31 := by
  rw [lcgNext_toNat, lcgNext_toNat]
  omega

theorem lcgNext_iterate_congr {x y : Word} (k : Nat) (h : x.toNat % 2 ^ 31 = y.toNat % 2 ^ 31) :
    (lcgNext^[k] x).toNat % 2 ^ 31 = (lcgNext^[k] y).toNat % 2 ^ 31 := by
  induction k with
  | zero => exact h
  | succ k ih =>
    rw [Function.iterate_succ_apply', Function.iterate_succ_apply']
    exact lcgNext_congr ih

theorem specialKeySeed_congr {x y : Word} (h : x.toNat % 2 ^ 31 = y.toNat % 2 ^ 31) :
    specialKeySeed x = specialKeySeed y := by
  rw [specialKeySeed_eq, specialKeySeed_eq]
  omega

theorem specialKeySeed_le (st : Word) : specialKeySeed st ≤ 32767 := by
  rw [specialKeySeed_eq]
  omega

theorem outboundA_toNat (st : Word) : (outboundA st).toNat = specialKeySeed st + 256 := by
  have hle := specialKeySeed_le st
  rw [outboundA, BitVec.toNat_ofNat]
  simp only [aMod, aOff]
  omega

/-! ### The obligations -/

/-- Settles O42: the replication keeps the low byte of the formula's integer, and a seed above 9 puts 0 in its place. -/
theorem saltBuildWrapsAndZeroesUnknownSeeds : Obligations.SaltBuildWrapsAndZeroesUnknownSeeds := by
  intro c seed
  refine ⟨saltBuild_length c seed, fun i => ⟨fun h => ?_, fun h => ?_⟩⟩
  · rw [saltBuild_getElem? c seed i i.isLt, saltEntry_known c h i, Option.map_some, low8_toNat]
  · rw [saltBuild_getElem? c seed i i.isLt, saltEntry_unknown c h]

/-- Settles O46: every step keeps the agreement below bit 31, and the output reads no higher bit. -/
theorem generatorIgnoresItsTopBit : Obligations.GeneratorIgnoresItsTopBit := fun _ _ k h =>
  ⟨lcgNext_iterate_congr k h, specialKeySeed_congr (lcgNext_iterate_congr k h)⟩

/-- Settles O47: fifteen bits are below the modulus. -/
theorem outboundAIsSeedPlusOffset : Obligations.OutboundAIsSeedPlusOffset := by
  intro st
  have hle := specialKeySeed_le st
  have ha := outboundA_toNat st
  exact ⟨hle, ha, by omega, by omega⟩

end Sys2Proof.Machine
end
